-- ==== Sys2Proof/Word.lean ====
section
/-! DEFINITION. The word types of the codec block. Every value is unsigned (00_scope.md R10). -/

namespace Sys2Proof

/-- One byte of a frame, an address, a function code, a selector (00_scope.md R10, R11). -/
abbrev Byte := BitVec 8

/-- A 16-bit quantity: an RS485 register or value, a CAN selection, a CRC (00_scope.md R7). -/
abbrev Half := BitVec 16

/-- A position, 32 bits, unsigned (00_scope.md R7, R15). -/
abbrev Position := BitVec 32

/-- An operation word, format OPW (30_encoding.md R90). -/
abbrev OpWord := BitVec 64

end Sys2Proof
end

