-- ==== Sys2Proof/Syntax.lean ====
section
/-! DEFINITION. The operations of the codec block, one constructor per row of spec/opcode_table.json.
The first thirteen are the operations of 30_encoding.md R93.
The last twelve are the configuration spellings of 43_config.md R221 and R222, whose words are words of R485WR and of CANSEND.
Operands stand in the order of the assembler forms of R97, with the handle last. -/

namespace Sys2Proof

/-- An operation with its operands, every field as R91 and R92 read it. -/
inductive Instr where
  /-- `CRC16 {bytes}` (40_crc.md R130). -/
  | crc16
  /-- `R485ENC h, fn, reg, val` (41_rs485.md R151). -/
  | r485enc (fn : Byte) (reg val : Half) (h : Byte)
  /-- `R485CHK h, fn, reg, val, {bytes}` (41_rs485.md R153). -/
  | r485chk (fn : Byte) (reg val : Half) (h : Byte)
  /-- `R485POS h, {bytes}` (41_rs485.md R160). -/
  | r485pos (h : Byte)
  /-- `R485WR h, reg, val` (41_rs485.md R161). -/
  | r485wr (reg val : Half) (h : Byte)
  /-- `R485RDPOS h` (41_rs485.md R162). -/
  | r485rdpos (h : Byte)
  /-- `R485RDPOSA h` (41_rs485.md R163). -/
  | r485rdposa (h : Byte)
  /-- `R485RXCB h, {bytes}`, host only (41_rs485.md R164). -/
  | r485rxcb (h : Byte)
  /-- `CANENC h, cmd, len, sel` (42_can.md R190). -/
  | canenc (cmd len : Byte) (sel : Half) (h : Byte)
  /-- `CANDEC h, {bytes}` (42_can.md R194). -/
  | candec (h : Byte)
  /-- `CANSEND h, cmd, len, sel` (42_can.md R195). -/
  | cansend (cmd len : Byte) (sel : Half) (h : Byte)
  /-- `CANRXCB h, {bytes}`, host only (42_can.md R196). -/
  | canrxcb (h : Byte)
  /-- `SETADDR h, a` (43_config.md R223). -/
  | setaddr (a : Byte) (h : Byte)
  /-- `SET485ADDR h, v` is `R485WR h, 0x0004, v` (43_config.md R221). -/
  | set485addr (v : Half) (h : Byte)
  /-- `SET485BAUD h, v` is `R485WR h, 0x0005, v` (43_config.md R221). -/
  | set485baud (v : Half) (h : Byte)
  /-- `SET485MODE h, v` is `R485WR h, 0x0006, v` (43_config.md R221). -/
  | set485mode (v : Half) (h : Byte)
  /-- `SET485RET h, v` is `R485WR h, 0x0007, v` (43_config.md R221). -/
  | set485ret (v : Half) (h : Byte)
  /-- `SET485ZERO h, v` is `R485WR h, 0x0008, v` (43_config.md R221). -/
  | set485zero (v : Half) (h : Byte)
  /-- `SET485DIR h, v` is `R485WR h, 0x0009, v` (43_config.md R221). -/
  | set485dir (v : Half) (h : Byte)
  /-- `CANGET h` is `CANSEND h, GET_VALUE, 4, 0` (43_config.md R222). -/
  | canget (h : Byte)
  /-- `CANSETID h, v` is `CANSEND h, SET_ID, 4, v` (43_config.md R222). -/
  | cansetid (v : Half) (h : Byte)
  /-- `CANSETBAUD h, v` is `CANSEND h, SET_BAUDRATE, 4, v` (43_config.md R222). -/
  | cansetbaud (v : Half) (h : Byte)
  /-- `CANSETMODE h, v` is `CANSEND h, SET_MODE, 4, v` (43_config.md R222). -/
  | cansetmode (v : Half) (h : Byte)
  /-- `CANSETRET h, v` is `CANSEND h, SET_RETURN_TIME, 4, v` (43_config.md R222). -/
  | cansetret (v : Half) (h : Byte)
  /-- `CANSETZERO h, v` is `CANSEND h, SET_ZERO, 4, v` (43_config.md R222). -/
  | cansetzero (v : Half) (h : Byte)
deriving DecidableEq, Repr

/-- The handle index H an operation names; CRC16 names none (30_encoding.md R93). -/
def Instr.handle? : Instr → Option Byte
  | .crc16 => none
  | .r485enc _ _ _ h | .r485chk _ _ _ h | .r485pos h | .r485wr _ _ h | .r485rdpos h
  | .r485rdposa h | .r485rxcb h | .canenc _ _ _ h | .candec h | .cansend _ _ _ h
  | .canrxcb h | .setaddr _ h | .set485addr _ h | .set485baud _ h | .set485mode _ h
  | .set485ret _ h | .set485zero _ h | .set485dir _ h | .canget h | .cansetid _ h
  | .cansetbaud _ h | .cansetmode _ h | .cansetret _ h | .cansetzero _ h => some h

end Sys2Proof
end

