-- ==== Sys2Proof/WellFormed.lean ====
section
/-! DEFINITION. When a term of `Instr` is a well-formed operation of a block with `nh` handle slots.
Two checks: its handle is a slot (30_encoding.md R94 condition 3), and it is the decoder's spelling of its word.
The second check exists because a configuration spelling shares its word with an R485WR or a CANSEND (43_config.md R220 to R222, log 14). -/

namespace Sys2Proof

/-- H < NH for an operation that uses H (30_encoding.md R94 condition 3). -/
def Instr.handleInRange (nh : Nat) (i : Instr) : Bool :=
  match i.handle? with
  | none => true
  | some h => decide (h.toNat < nh)

/-- An R485WR to one of the registers 0x0004 to 0x0009 has a configuration spelling (43_config.md R221). -/
def hasConfigRegister (reg : Half) : Bool :=
  reg == 0x0004#16 || reg == 0x0005#16 || reg == 0x0006#16 ||
    reg == 0x0007#16 || reg == 0x0008#16 || reg == 0x0009#16

/-- A CANSEND of length 4 with selector 1 to 5, or with selector 0 and selection 0, has a configuration spelling (43_config.md R222). -/
def hasConfigCommand (cmd len : Byte) (sel : Half) : Bool :=
  len == 4#8 && ((cmd == 0#8 && sel == 0#16) || cmd == 1#8 || cmd == 2#8 || cmd == 3#8 ||
    cmd == 4#8 || cmd == 5#8)

/-- The term is the spelling the decoder answers for its word (log 14). -/
def Instr.decoderSpelling : Instr → Bool
  | .r485wr reg _ _ => !hasConfigRegister reg
  | .cansend cmd len sel _ => !hasConfigCommand cmd len sel
  | _ => true

/-- Both checks. -/
def Instr.WellFormed (nh : Nat) (i : Instr) : Bool :=
  i.handleInRange nh && i.decoderSpelling

end Sys2Proof
end

