-- ==== Sys2Proof/Decode.lean ====
section
/-! DEFINITION. Decoding an operation word, and the encoder written from the same tables (30_encoding.md R91 to R94, 43_config.md R221 and R222).
The decoder checks conditions 1 and 2 of R94, which are about the word alone.
Conditions 3 and 4 need the number of handles and the issuing agent, and are checked by the operation (Machine/Ops.lean, `precheck`).
A word with a configuration spelling decodes to that spelling (log 14). -/

namespace Sys2Proof

/-- Why a word names no operation (30_encoding.md R94). -/
inductive DecodeError where
  /-- Condition 1: OP is not one of the 13 codes. -/
  | unknownOp (op : Byte)
  /-- Condition 2: a field the operation does not use is not zero. -/
  | unusedField (op : Byte)
deriving DecidableEq, Repr

/-- The six fields of an operation word (30_encoding.md R91). -/
structure Fields where
  op : Byte
  a : Byte
  b : Byte
  c : Half
  d : Half
  h : Byte
deriving DecidableEq, Repr

/-- The fields of a word: OP W[7:0], A W[15:8], B W[23:16], C W[39:24], D W[55:40], H W[63:56] (30_encoding.md R91). -/
def fieldsOfWord (w : OpWord) : Fields :=
  { op := w.extractLsb' 0 8
    a := w.extractLsb' 8 8
    b := w.extractLsb' 16 8
    c := w.extractLsb' 24 16
    d := w.extractLsb' 40 16
    h := w.extractLsb' 56 8 }

/-- The word with the given fields (30_encoding.md R91). -/
def wordOfFields (f : Fields) : OpWord :=
  f.h ++ f.d ++ f.c ++ f.b ++ f.a ++ f.op

/-- The thirteen operations of the operation map (30_encoding.md R93). -/
inductive Opcode where
  | crc16 | r485enc | r485chk | r485pos | r485wr | r485rdpos | r485rdposa | r485rxcb
  | canenc | candec | cansend | canrxcb | setaddr
deriving DecidableEq, Repr

/-- The OP code of an operation (30_encoding.md R93). -/
def opcodeCode : Opcode → Byte
  | .crc16 => 0x01#8
  | .r485enc => 0x10#8
  | .r485chk => 0x11#8
  | .r485pos => 0x12#8
  | .r485wr => 0x18#8
  | .r485rdpos => 0x19#8
  | .r485rdposa => 0x1A#8
  | .r485rxcb => 0x1B#8
  | .canenc => 0x20#8
  | .candec => 0x21#8
  | .cansend => 0x28#8
  | .canrxcb => 0x29#8
  | .setaddr => 0x30#8

/-- The operation map in the order of R93. -/
def allOpcodes : List Opcode :=
  [.crc16, .r485enc, .r485chk, .r485pos, .r485wr, .r485rdpos, .r485rdposa, .r485rxcb,
    .canenc, .candec, .cansend, .canrxcb, .setaddr]

/-- The operation with a given OP code, if there is one (30_encoding.md R94 condition 1). -/
def opcodeOfCode (b : Byte) : Option Opcode :=
  allOpcodes.find? fun o => opcodeCode o == b

/-- The fields an operation uses (30_encoding.md R93). -/
structure FieldUse where
  a : Bool := false
  b : Bool := false
  c : Bool := false
  d : Bool := false
  h : Bool := false
deriving DecidableEq, Repr

/-- "Fields used" of the operation map (30_encoding.md R93). -/
def fieldUse : Opcode → FieldUse
  | .crc16 => {}
  | .r485enc | .r485chk => { a := true, c := true, d := true, h := true }
  | .r485wr => { c := true, d := true, h := true }
  | .r485pos | .r485rdpos | .r485rdposa | .r485rxcb | .candec | .canrxcb => { h := true }
  | .canenc | .cansend => { a := true, b := true, c := true, h := true }
  | .setaddr => { a := true, h := true }

/-- Every field the operation does not use is zero (30_encoding.md R94 condition 2). -/
def unusedFieldsZero (o : Opcode) (f : Fields) : Bool :=
  let u := fieldUse o
  (u.a || f.a == 0#8) && (u.b || f.b == 0#8) && (u.c || f.c == 0#16) &&
    (u.d || f.d == 0#16) && (u.h || f.h == 0#8)

/-- An R485WR word in the decoder's spelling (43_config.md R221). -/
def spellR485wr (reg val : Half) (h : Byte) : Instr :=
  if reg = 0x0004#16 then .set485addr val h
  else if reg = 0x0005#16 then .set485baud val h
  else if reg = 0x0006#16 then .set485mode val h
  else if reg = 0x0007#16 then .set485ret val h
  else if reg = 0x0008#16 then .set485zero val h
  else if reg = 0x0009#16 then .set485dir val h
  else .r485wr reg val h

/-- A CANSEND word in the decoder's spelling (43_config.md R222). -/
def spellCansend (cmd len : Byte) (sel : Half) (h : Byte) : Instr :=
  if len = 4#8 then
    if cmd = 0#8 then (if sel = 0#16 then .canget h else .cansend cmd len sel h)
    else if cmd = 1#8 then .cansetid sel h
    else if cmd = 2#8 then .cansetbaud sel h
    else if cmd = 3#8 then .cansetmode sel h
    else if cmd = 4#8 then .cansetret sel h
    else if cmd = 5#8 then .cansetzero sel h
    else .cansend cmd len sel h
  else .cansend cmd len sel h

/-- The operation with its operands assembled as R92 and R97 say. -/
def instrOfFields (o : Opcode) (f : Fields) : Instr :=
  match o with
  | .crc16 => .crc16
  | .r485enc => .r485enc f.a f.c f.d f.h
  | .r485chk => .r485chk f.a f.c f.d f.h
  | .r485pos => .r485pos f.h
  | .r485wr => spellR485wr f.c f.d f.h
  | .r485rdpos => .r485rdpos f.h
  | .r485rdposa => .r485rdposa f.h
  | .r485rxcb => .r485rxcb f.h
  | .canenc => .canenc f.a f.b f.c f.h
  | .candec => .candec f.h
  | .cansend => spellCansend f.a f.b f.c f.h
  | .canrxcb => .canrxcb f.h
  | .setaddr => .setaddr f.a f.h

/-- Decoding from the fields: R94 conditions 1 and 2, in that order. -/
def decodeFields (f : Fields) : Except DecodeError Instr :=
  match opcodeOfCode f.op with
  | none => .error (.unknownOp f.op)
  | some o => if unusedFieldsZero o f then .ok (instrOfFields o f) else .error (.unusedField f.op)

/-- Decoding an operation word, total on every word (30_encoding.md R90 to R94). -/
def decode (w : OpWord) : Except DecodeError Instr := decodeFields (fieldsOfWord w)

/-- A configuration spelling expanded to its operation; any other operation is itself (43_config.md R221, R222). -/
def expand : Instr → Instr
  | .set485addr v h => .r485wr 0x0004#16 v h
  | .set485baud v h => .r485wr 0x0005#16 v h
  | .set485mode v h => .r485wr 0x0006#16 v h
  | .set485ret v h => .r485wr 0x0007#16 v h
  | .set485zero v h => .r485wr 0x0008#16 v h
  | .set485dir v h => .r485wr 0x0009#16 v h
  | .canget h => .cansend 0#8 4#8 0#16 h
  | .cansetid v h => .cansend 1#8 4#8 v h
  | .cansetbaud v h => .cansend 2#8 4#8 v h
  | .cansetmode v h => .cansend 3#8 4#8 v h
  | .cansetret v h => .cansend 4#8 4#8 v h
  | .cansetzero v h => .cansend 5#8 4#8 v h
  | i => i

/-- The spelling the decoder answers for an operation's word (log 14). -/
def respell : Instr → Instr
  | .r485wr reg val h => spellR485wr reg val h
  | .cansend cmd len sel h => spellCansend cmd len sel h
  | i => i

/-- The fields of an operation that is not a configuration spelling, after the assembler table of 30_encoding.md R97.
A configuration spelling has the fields of its expansion. -/
def fieldsOf (i : Instr) : Fields :=
  match i with
  | .crc16 => ⟨0x01#8, 0#8, 0#8, 0#16, 0#16, 0#8⟩
  | .r485enc fn reg val h => ⟨0x10#8, fn, 0#8, reg, val, h⟩
  | .r485chk fn reg val h => ⟨0x11#8, fn, 0#8, reg, val, h⟩
  | .r485pos h => ⟨0x12#8, 0#8, 0#8, 0#16, 0#16, h⟩
  | .r485wr reg val h => ⟨0x18#8, 0#8, 0#8, reg, val, h⟩
  | .r485rdpos h => ⟨0x19#8, 0#8, 0#8, 0#16, 0#16, h⟩
  | .r485rdposa h => ⟨0x1A#8, 0#8, 0#8, 0#16, 0#16, h⟩
  | .r485rxcb h => ⟨0x1B#8, 0#8, 0#8, 0#16, 0#16, h⟩
  | .canenc cmd len sel h => ⟨0x20#8, cmd, len, sel, 0#16, h⟩
  | .candec h => ⟨0x21#8, 0#8, 0#8, 0#16, 0#16, h⟩
  | .cansend cmd len sel h => ⟨0x28#8, cmd, len, sel, 0#16, h⟩
  | .canrxcb h => ⟨0x29#8, 0#8, 0#8, 0#16, 0#16, h⟩
  | .setaddr a h => ⟨0x30#8, a, 0#8, 0#16, 0#16, h⟩
  | .set485addr v h => ⟨0x18#8, 0#8, 0#8, 0x0004#16, v, h⟩
  | .set485baud v h => ⟨0x18#8, 0#8, 0#8, 0x0005#16, v, h⟩
  | .set485mode v h => ⟨0x18#8, 0#8, 0#8, 0x0006#16, v, h⟩
  | .set485ret v h => ⟨0x18#8, 0#8, 0#8, 0x0007#16, v, h⟩
  | .set485zero v h => ⟨0x18#8, 0#8, 0#8, 0x0008#16, v, h⟩
  | .set485dir v h => ⟨0x18#8, 0#8, 0#8, 0x0009#16, v, h⟩
  | .canget h => ⟨0x28#8, 0#8, 4#8, 0#16, 0#16, h⟩
  | .cansetid v h => ⟨0x28#8, 1#8, 4#8, v, 0#16, h⟩
  | .cansetbaud v h => ⟨0x28#8, 2#8, 4#8, v, 0#16, h⟩
  | .cansetmode v h => ⟨0x28#8, 3#8, 4#8, v, 0#16, h⟩
  | .cansetret v h => ⟨0x28#8, 4#8, 4#8, v, 0#16, h⟩
  | .cansetzero v h => ⟨0x28#8, 5#8, 4#8, v, 0#16, h⟩

/-- The operation word of an operation (30_encoding.md R91, R97). -/
def encode (i : Instr) : OpWord := wordOfFields (fieldsOf i)

/-- The instruction of an `nbits`-bit pattern numbered as the opcode table numbers it: a word is one 64-bit unit, bits above `nbits` are zero (log 19). -/
def decodeTableWord (nbits w : Nat) : Option Instr :=
  if nbits ≤ 64 then
    match decode (BitVec.ofNat 64 (w % 2 ^ nbits)) with
    | .ok i => some i
    | .error _ => none
  else none

end Sys2Proof
end

