-- ==== Sys2Proof/Config.lean ====
section
/-! DEFINITION. What the source fixes as parameters (00_scope.md R7), what it leaves open as parameters (R8), and the free values.
The open parameters are the record `Params` and each slot's `Binding`: data of State that no step writes, so that a statement about every state holds for every choice of them.
A free value is an opaque constant: nothing can be proved of what it is. -/

namespace Sys2Proof

/-- The spec's own identity label (00_scope.md R3). -/
def Config.identity : String := "STM32-Common/codec-core"

/-- The CRC accumulator's initial value (00_scope.md R2, R7). -/
def Config.crcInit : Half := 0xFFFF#16

/-- The reflected CRC polynomial (00_scope.md R2, R7). -/
def Config.crcPoly : Half := 0xA001#16

/-- The position sentinel, all ones (00_scope.md R7). -/
def Config.sentinel : Position := 0xFFFFFFFF#32

/-- The wire code of the CAN command GET_VALUE (00_scope.md R7). -/
def Config.canGetValue : Byte := 0x01#8

/-- The fixed length byte of a CAN position report (00_scope.md R7). -/
def Config.canReportLength : Byte := 0x07#8

/-- The least input-port capacity the spec allows (20_memory.md R62). -/
def Config.minInCap : Nat := 9

/-- The semantic bound of a CAN position, 4096 × 24, which no operation checks (00_scope.md R7, 42_can.md R197). -/
def Config.canPositionBound : Nat := 4096 * 24

/-- KIND: the transport family a handle is bound to (10_state.md R35). -/
inductive Kind where
  | rs485
  | can
deriving DecidableEq, Repr

/-- KIND[h] and TRANSPORT[h] of one handle, fixed for the lifetime of the model (10_state.md R35).
The channel is an opaque reference: the model only hands it to the host (log 9). -/
structure Binding where
  kind : Kind
  transport : Nat
deriving DecidableEq, Repr

/-- CAN_CMD_CODE(c) of the five commands other than GET_VALUE (30_encoding.md R107). -/
structure CanCodes where
  setId : Byte
  setBaudrate : Byte
  setMode : Byte
  setReturnTime : Byte
  setZero : Byte
deriving DecidableEq, Repr, Inhabited

/-- The codes as a list, GET_VALUE first: the order of the selectors 0 to 5 (30_encoding.md R107). -/
def CanCodes.toList (c : CanCodes) : List Byte :=
  [Config.canGetValue, c.setId, c.setBaudrate, c.setMode, c.setReturnTime, c.setZero]

/-- The five bytes are pairwise distinct and distinct from 0x01 (30_encoding.md R107). -/
def CanCodes.Distinct (c : CanCodes) : Bool := decide c.toList.Nodup

/-- The open parameters of the block (00_scope.md R8) other than NH and the bindings, which the handle slots carry. -/
structure Params where
  /-- IN_CAP (20_memory.md R62). -/
  inCap : Nat
  /-- CAN_CMD_CODE (30_encoding.md R107). -/
  canCodes : CanCodes
  /-- XSTAT, the set of transport status bytes, in rising order (92_eei_decisions.md D21, log 6). -/
  xstat : List Byte
  /-- T_TX, handed to the host with `transmit` (60_exceptions.md R254). -/
  tTx : Nat
  /-- T_RX, handed to the host with `receive` (60_exceptions.md R254). -/
  tRx : Nat
deriving DecidableEq, Repr

/-- What R62 and R107 require of the parameters, and that a set of bytes is listed in rising order. -/
def Params.Valid (p : Params) : Bool :=
  decide (Config.minInCap ≤ p.inCap) && p.canCodes.Distinct &&
    decide (p.xstat.Pairwise fun x y => x.toNat < y.toNat)

/-- Every byte, in rising order: the set of statuses that 60_exceptions.md R256 admits. -/
def Config.everyByte : List Byte := (List.range 256).map (BitVec.ofNat 8)

/-- One draw of the host oracle: the answer to one host primitive (00_scope.md R14, 60_exceptions.md R256).
`data` is read by `receive` only. -/
inductive HostAnswer where
  | ok (data : List Byte)
  | error (x : Byte)
deriving DecidableEq, Repr, Inhabited

/-- Free value: the k-th oracle draw where no answer was given in advance (60_exceptions.md R256, log 4). -/
opaque Config.freeAnswer : Nat → HostAnswer

/-- Free value: byte i of the k-th draw where the answer given names fewer bytes than were asked for (60_exceptions.md R256, log 4). -/
opaque Config.freeByte : Nat → Nat → Byte

/-- Free value: five candidate command codes (30_encoding.md R107, log 7). -/
opaque Config.freeCanCodes : CanCodes

/-- Free value: T_TX (92_eei_decisions.md D22, log 8). -/
opaque Config.freeTimeoutTx : Nat

/-- Free value: T_RX (92_eei_decisions.md D22, log 8). -/
opaque Config.freeTimeoutRx : Nat

/-- Free value: TRANSPORT[h] (92_eei_decisions.md D8, log 9). -/
opaque Config.freeTransport : Nat → Nat

/-- CAN_CMD_CODE of the block as reset leaves it: any five bytes that meet R107, and no more is known of them.
A free choice that does not meet R107 is no choice the spec admits; another five stand in for it (log 7). -/
def Config.canCodes : CanCodes :=
  if Config.freeCanCodes.Distinct then Config.freeCanCodes
  else { setId := 0xF1#8, setBaudrate := 0xF2#8, setMode := 0xF3#8, setReturnTime := 0xF4#8, setZero := 0xF5#8 }

/-- The parameters `State.reset` carries: IN_CAP is that of 95_test_vectors.md, XSTAT is every byte, the rest is free (logs 6 and 10). -/
def Config.resetParams : Params :=
  { inCap := 16, canCodes := Config.canCodes, xstat := Config.everyByte, tTx := Config.freeTimeoutTx, tRx := Config.freeTimeoutRx }

/-- The bindings `State.reset` carries: those of 95_test_vectors.md, NH = 2, KIND = (RS485, CAN) (log 10). -/
def Config.resetBindings : List Binding :=
  [{ kind := .rs485, transport := Config.freeTransport 0 }, { kind := .can, transport := Config.freeTransport 1 }]

end Sys2Proof
end

