-- ==== Sys2Proof/Machine/State.lean ====
section
/-! DEFINITION. The state of the codec block (10_state.md), as plain data, and its value at reset.
It holds the spec's state (handle slots, response record, marks), the open parameters, the snapshot of the operation being performed, and the host interface as lists.
Nothing else persists between operations (R30). -/

namespace Sys2Proof.Machine

/-- The faults of 60_exceptions.md R251.
A meaning raises one by setting the FAULT mark and answering a next state, as R250 says; no step answers `Outcome.fault` (log 2).
Each is safe as long as a claim asks for a final state (R13, Safety.lean), and unsafe for a claim that does not. -/
inductive Fault where
  /-- F_ILLEGAL_OP: a word that breaks 30_encoding.md R94; raised by `runWord` (conditions 1, 2) and by `precheck` (conditions 3, 4). Safe for claims about final states. -/
  | illegalOp
  /-- F_ADDR_UNSET: ADDR[h] is read while UNSET; raised by `precheckAddr`. Safe for claims about final states. -/
  | addrUnset
  /-- F_ADDR_ZERO: SETADDR with 0x00; raised by `execSetaddr`. Safe for claims about final states. -/
  | addrZero
  /-- F_BUSY: R485WR, R485RDPOS, R485RDPOSA or SETADDR while BUSY[h] = 1; raised by `precheck`. Safe for claims about final states. -/
  | busy
  /-- F_WRONG_TRANSPORT: a transaction or delivery on a handle of the other kind; raised by `precheck`. Safe for claims about final states. -/
  | wrongTransport
deriving DecidableEq, Repr

/-- The refusals of 60_exceptions.md R252, and the host's word for an instruction without a meaning.
A meaning refuses by setting the REFUSED mark and answering a next state, as R252 says; no step answers `Outcome.refused` (log 2). -/
inductive Refusal where
  /-- The host's: an instruction that has no meaning yet; no arm of `exec` raises it and no mark holds it. Safe. -/
  | notModelled (mnemonic : String)
  /-- Q_WRITE_MULTI_RESPONSE: R485CHK with fn = 0x10 (41_rs485.md R159). Safe for claims about final states. -/
  | writeMultiResponse
  /-- Q_IN_CAP: an input longer than IN_CAP (30_encoding.md R95); raised by `precheck` and `execCrc16`. Safe for claims about final states. -/
  | inCap
deriving DecidableEq, Repr

/-- STATUS of a response record (60_exceptions.md R241). -/
inductive Status where
  | ok
  | transport
  | invalid
  | encode
deriving DecidableEq, Repr

/-- REASON of a response record (60_exceptions.md R243). -/
inductive Reason where
  | none
  | addrMismatch
  | funcMismatch
  | shortFrame
  | crcMismatch
  | echoMismatch
  | byteCount
  | reportLength
  | reportCommand
  | badFunction
  | badLength
  | badCommand
  | txFail
  | rxFail
deriving DecidableEq, Repr

/-- The response record (10_state.md R39). A field that is `none` is ABSENT. -/
structure Response where
  status : Status
  reason : Reason
  /-- Transport status byte, present only with STATUS = TRANSPORT. -/
  xstat : Option Byte := Option.none
  crc : Option Half := Option.none
  pos : Option Position := Option.none
  /-- Number of valid OUT bytes, 0 to 8. -/
  olen : Option (BitVec 4) := Option.none
  /-- The frame output port OUT[0..7] (20_memory.md R61). -/
  out : Option (Vector Byte 8) := Option.none
  canId : Option (BitVec 11) := Option.none
  ide : Option (BitVec 1) := Option.none
  rtr : Option (BitVec 1) := Option.none
deriving DecidableEq, Repr

/-- One device handle (10_state.md R30): its binding (configuration, R35), ADDR[h] (R34, `none` is UNSET) and BUSY[h] (R36). -/
structure Slot where
  binding : Binding
  addr : Option Byte
  busy : Bool
deriving DecidableEq, Repr

/-- Who issues an operation (60_exceptions.md R255). The block does not tell clients apart. -/
inductive Agent where
  | client
  | host
deriving DecidableEq, Repr

/-- An operation request: the issuing agent, the operation word and the byte sequence IN (30_encoding.md R90). -/
structure Request where
  agent : Agent
  word : OpWord
  input : List Byte
deriving DecidableEq, Repr

/-- What can happen next in the total order of 20_memory.md R72: an operation, or a reset between operations (70_reset_and_hazards.md R270). -/
inductive Event where
  | op (r : Request)
  | reset
deriving DecidableEq, Repr

/-- A call of a host primitive with what it hands over (00_scope.md R14, 60_exceptions.md R257). -/
inductive HostPrimitive where
  | transmit (frame : List Byte) (timeout : Nat)
  | receive (n : Nat) (timeout : Nat)
  | transmitAsync (frame : List Byte)
  | canTransmit (frame : List Byte) (dlc : Byte) (id : BitVec 11) (ide rtr : BitVec 1)
deriving DecidableEq, Repr

/-- A host call: the channel TRANSPORT[h] it acts on (10_state.md R35), and the primitive. -/
structure HostCall where
  channel : Nat
  prim : HostPrimitive
deriving DecidableEq, Repr

/-- The state of the block and of its host interface. -/
structure State where
  /-- The open parameters (00_scope.md R8); no step writes them. -/
  params : Params
  /-- The handle slots 0 .. NH−1 (10_state.md R30, R31). -/
  slots : List Slot
  /-- The response record of the last completed operation (10_state.md R39). -/
  response : Option Response
  /-- The FAULT mark (10_state.md R42). -/
  faultMark : Option Fault
  /-- The REFUSED mark (10_state.md R42). -/
  refusedMark : Option Refusal
  /-- The agent that issued the operation being performed (30_encoding.md R94, log 12). -/
  agent : Agent
  /-- The input byte port IN: the snapshot of the operation being performed (20_memory.md R60, R70, log 12). -/
  inPort : List Byte
  /-- Operations and resets still to come, in the total order of 20_memory.md R72 (log 1). -/
  pending : List Event
  /-- Oracle draws given in advance, the next first (60_exceptions.md R256, log 4). -/
  answers : List HostAnswer
  /-- How many oracle draws have been made (log 4). -/
  draws : Nat
  /-- What the block has handed to the host, oldest first (60_exceptions.md R257, log 11). -/
  calls : List HostCall
deriving DecidableEq, Repr

/-- NH, the number of handle slots (10_state.md R31). -/
def State.nh (s : State) : Nat := s.slots.length

/-- A handle as reset leaves it: ADDR UNSET, BUSY 0 (10_state.md R45). -/
def Slot.fresh (b : Binding) : Slot := { binding := b, addr := none, busy := false }

/-- The state at the start of a run, right after reset (10_state.md R45, 70_reset_and_hazards.md R270).
The configuration is the one of log 10; the host interface lists nothing (logs 1, 4, 11). -/
def State.reset : State :=
  { params := Config.resetParams
    slots := Config.resetBindings.map Slot.fresh
    response := none
    faultMark := none
    refusedMark := none
    agent := .client
    inPort := []
    pending := []
    answers := []
    draws := 0
    calls := [] }

end Sys2Proof.Machine
end

