-- ==== Sys2Proof/Machine/Operands.lean ====
section
/-! DEFINITION. Operand forms: byte order (20_memory.md R65), function codes (30_encoding.md R106), CAN commands (R107), the device register map (R108), the frame output port (20_memory.md R61) and the status and reason codes' values (60_exceptions.md R241, R243). -/

namespace Sys2Proof.Machine

/-- The low byte of a 16-bit value (00_scope.md R11). -/
def lo8 (v : Half) : Byte := v.extractLsb' 0 8

/-- The high byte of a 16-bit value (00_scope.md R11). -/
def hi8 (v : Half) : Byte := v.extractLsb' 8 8

/-- 16 bits from their low and high byte, the low one first: the frame order of a CRC (00_scope.md R11). -/
def le16 (l h : Byte) : Half := h ++ l

/-- 16 bits from their high and low byte, the high one first (00_scope.md R11). -/
def be16 (h l : Byte) : Half := h ++ l

/-- 32 bits from four bytes, the first most significant: the RS485 position (00_scope.md R11). -/
def be32 (b0 b1 b2 b3 : Byte) : Position := b0 ++ b1 ++ b2 ++ b3

/-- 32 bits from four bytes, the first least significant: the CAN position (00_scope.md R11). -/
def le32 (b0 b1 b2 b3 : Byte) : Position := b3 ++ b2 ++ b1 ++ b0

/-- Byte i of a byte sequence; every rule that reads one checks i < len first (20_memory.md R68). -/
def byteAt (s : List Byte) (i : Nat) : Byte := s.getD i 0#8

/-- The frame output port holding a frame: OUT[i] is 0x00 at and above the frame's length (20_memory.md R61). -/
def outPort (f : List Byte) : Vector Byte 8 :=
  #v[byteAt f 0, byteAt f 1, byteAt f 2, byteAt f 3, byteAt f 4, byteAt f 5, byteAt f 6, byteAt f 7]

/-- The RS485 function codes (30_encoding.md R106). -/
inductive Func where
  | read
  | writeSingle
  | writeMulti
deriving DecidableEq, Repr

/-- Byte 1 of an RS485 frame (30_encoding.md R106). -/
def funcCode : Func → Byte
  | .read => 0x03#8
  | .writeSingle => 0x06#8
  | .writeMulti => 0x10#8

/-- The function a code names, if it is one of the three (30_encoding.md R106). -/
def funcOfCode (b : Byte) : Option Func :=
  if b = 0x03#8 then some .read
  else if b = 0x06#8 then some .writeSingle
  else if b = 0x10#8 then some .writeMulti
  else none

/-- The CAN commands (30_encoding.md R107). -/
inductive Command where
  | getValue
  | setId
  | setBaudrate
  | setMode
  | setReturnTime
  | setZero
deriving DecidableEq, Repr

/-- The command a selector names; a selector above 5 names none (30_encoding.md R107). -/
def commandOfSelector (b : Byte) : Option Command :=
  if b = 0#8 then some .getValue
  else if b = 1#8 then some .setId
  else if b = 2#8 then some .setBaudrate
  else if b = 3#8 then some .setMode
  else if b = 4#8 then some .setReturnTime
  else if b = 5#8 then some .setZero
  else none

/-- The selector of a command (30_encoding.md R107). -/
def selectorOf : Command → Byte
  | .getValue => 0#8
  | .setId => 1#8
  | .setBaudrate => 2#8
  | .setMode => 3#8
  | .setReturnTime => 4#8
  | .setZero => 5#8

/-- Byte 2 of a CAN request: 0x01 for GET_VALUE, the parameter CAN_CMD_CODE for the others (42_can.md R190). -/
def cmdCode (k : CanCodes) : Command → Byte
  | .getValue => Config.canGetValue
  | .setId => k.setId
  | .setBaudrate => k.setBaudrate
  | .setMode => k.setMode
  | .setReturnTime => k.setReturnTime
  | .setZero => k.setZero

/-- The device registers the source names (30_encoding.md R108). -/
inductive DeviceReg where
  | position
  | turnCount
  | singleTurn
  | address
  | baudrate
  | mode
  | returnTime
  | zeroReset
  | direction
  | setPosition
  | midpoint
  | forceFiveTurns
deriving DecidableEq, Repr

/-- The register address of a device register (30_encoding.md R108). The block checks no register address against this map. -/
def deviceRegAddr : DeviceReg → Half
  | .position => 0x0000#16
  | .turnCount => 0x0002#16
  | .singleTurn => 0x0003#16
  | .address => 0x0004#16
  | .baudrate => 0x0005#16
  | .mode => 0x0006#16
  | .returnTime => 0x0007#16
  | .zeroReset => 0x0008#16
  | .direction => 0x0009#16
  | .setPosition => 0x000B#16
  | .midpoint => 0x000E#16
  | .forceFiveTurns => 0x000F#16

/-- The numeric STATUS code (60_exceptions.md R241). -/
def statusCode : Status → Byte
  | .ok => 0x00#8
  | .transport => 0x01#8
  | .invalid => 0x02#8
  | .encode => 0x03#8

/-- The numeric REASON code (60_exceptions.md R243). -/
def reasonCode : Reason → Byte
  | .none => 0x00#8
  | .addrMismatch => 0x10#8
  | .funcMismatch => 0x11#8
  | .shortFrame => 0x12#8
  | .crcMismatch => 0x13#8
  | .echoMismatch => 0x14#8
  | .byteCount => 0x15#8
  | .reportLength => 0x16#8
  | .reportCommand => 0x17#8
  | .badFunction => 0x20#8
  | .badLength => 0x21#8
  | .badCommand => 0x22#8
  | .txFail => 0x30#8
  | .rxFail => 0x31#8

end Sys2Proof.Machine
end

