-- ==== Sys2Proof/Machine/Flags.lean ====
section
/-! DEFINITION. The response record an operation writes.
The block has no condition flags (10_state.md R40): the record's STATUS, REASON and POS carry the outcome, so this is the flag computation of every operation.
Fields not named are ABSENT (10_state.md R39, 60_exceptions.md R242). -/

namespace Sys2Proof.Machine

/-- `return` with STATUS = OK and REASON = NONE (00_scope.md R13). -/
def okRecord : Response := { status := .ok, reason := .none }

/-- `reject(E, q)` with no other field (60_exceptions.md R242). -/
def rejectRecord (e : Status) (q : Reason) : Response := { status := e, reason := q }

/-- `reject(TRANSPORT, q)` with XSTAT = x (60_exceptions.md R242). -/
def transportRecord (q : Reason) (x : Byte) : Response :=
  { status := .transport, reason := q, xstat := some x }

/-- The record with OLEN and OUT of a frame (20_memory.md R61); the empty frame gives OLEN = 0 and OUT all 0x00. -/
def withFrame (f : List Byte) (r : Response) : Response :=
  { r with olen := some (BitVec.ofNat 4 f.length), out := some (outPort f) }

/-- The record with CANID = zext_11(a), IDE = 0 and RTR = 0 (30_encoding.md R105, 42_can.md R193). -/
def withCanLabel (a : Byte) (r : Response) : Response :=
  { r with canId := some (a.setWidth 11), ide := some 0#1, rtr := some 0#1 }

/-- The record with POS (10_state.md R39). -/
def withPos (p : Position) (r : Response) : Response := { r with pos := some p }

/-- The record of a validation: STATUS = OK, or INVALID with the reason (41_rs485.md R153). -/
def validationRecord : Except Reason Unit → Response
  | .ok _ => okRecord
  | .error q => rejectRecord .invalid q

/-- The record of a position operation: POS is the position, or the sentinel on a reject (60_exceptions.md R242). -/
def positionRecord : Except Reason Position → Response
  | .ok p => withPos p okRecord
  | .error q => withPos Config.sentinel (rejectRecord .invalid q)

end Sys2Proof.Machine
end

