-- ==== Sys2Proof/Machine/Ops.lean ====
section
/-! DEFINITION. The named operations over the state: the marks, the handle slots, the response record, the host primitives, the common checks of every operation, the reset event, and the issue and retirement of an operation.
There is no trap entry and no return from one (60_exceptions.md R240, R248, R249): `stop` is the one shared way an operation ends without a record. -/

namespace Sys2Proof.Machine

/-- A step's answer. -/
abbrev Answer := Host.Outcome State Fault Refusal

/-- `raise Fault(F)`: the FAULT mark becomes F, and nothing else changes (60_exceptions.md R250, logs 2 and 3). -/
def raiseFault (f : Fault) (s : State) : State := { s with faultMark := some f }

/-- `refuse(Q)`: the REFUSED mark becomes Q, and nothing else changes (60_exceptions.md R252, logs 2 and 3). -/
def refuseWith (q : Refusal) (s : State) : State := { s with refusedMark := some q }

/-- Why an operation stops before it completes (00_scope.md R13). -/
inductive Stop where
  | fault (f : Fault)
  | refuse (q : Refusal)
deriving DecidableEq, Repr

/-- The state after an operation that stops (60_exceptions.md R248). -/
def stop : Stop → State → State
  | .fault f, s => raiseFault f s
  | .refuse q, s => refuseWith q s

/-- A completed operation writes a fresh response record (10_state.md R39). -/
def respond (r : Response) (s : State) : State := { s with response := some r }

/-- The handle slot of index H, if H < NH (30_encoding.md R92, R94). -/
def slotAt (s : State) (h : Byte) : Option Slot := s.slots[h.toNat]?

/-- `ADDR[h] <- a` (43_config.md R223). -/
def setAddrOf (h a : Byte) (s : State) : State :=
  { s with slots := s.slots.modify h.toNat fun sl => { sl with addr := some a } }

/-- `BUSY[h] <- b` (10_state.md R36). -/
def setBusyOf (h : Byte) (b : Bool) (s : State) : State :=
  { s with slots := s.slots.modify h.toNat fun sl => { sl with busy := b } }

/-- A draw as an answer the parameter XSTAT admits: an error carries a byte of the set (00_scope.md R8, 93_implementation_defined.md K6).
A draw with another byte is no draw of this host: the least admitted error stands in for it, or ok where the set is empty (log 6). -/
def admittedAnswer (set : List Byte) : HostAnswer → HostAnswer
  | .ok data => .ok data
  | .error x =>
    if x ∈ set then .error x
    else match set with
      | y :: _ => .error y
      | [] => .ok []

/-- The host's answer n draws from now: the one given in advance, or a free one (60_exceptions.md R256, log 4). -/
def answerAt (s : State) (n : Nat) : HostAnswer :=
  admittedAnswer s.params.xstat (s.answers.getD n (Config.freeAnswer (s.draws + n)))

/-- The state after a call: one draw is taken, and the call is recorded (60_exceptions.md R257, log 11). -/
def takeDraw (c : HostCall) (s : State) : State :=
  { s with answers := s.answers.tail, draws := s.draws + 1, calls := s.calls ++ [c] }

/-- One host call: it is recorded, and the host's answer is the next draw of the oracle (60_exceptions.md R256). -/
def askHost (c : HostCall) (s : State) : HostAnswer × State := (answerAt s 0, takeDraw c s)

/-- The status byte of an answer to a transmit primitive: `none` is ok (00_scope.md R14). -/
def sendStatus : HostAnswer → Option Byte
  | .ok _ => none
  | .error x => some x

/-- Exactly n bytes from the k-th draw: `receive` returns exactly n bytes on ok (60_exceptions.md R257).
Bytes the draw does not name are free (log 4). -/
def exactBytes (k n : Nat) (data : List Byte) : List Byte :=
  (List.range n).map fun i => data.getD i (Config.freeByte k i)

/-- The bytes or the status byte of an answer to `receive(n, T_RX)`, the k-th draw (00_scope.md R14). -/
def receivedBytes (k n : Nat) : HostAnswer → Except Byte (List Byte)
  | .ok data => .ok (exactBytes k n data)
  | .error x => .error x

/-- A call of `transmit`, `transmitAsync` or `canTransmit` on a channel (00_scope.md R14). -/
def sendOn (channel : Nat) (p : HostPrimitive) (s : State) : Option Byte × State :=
  let (a, s') := askHost ⟨channel, p⟩ s
  (sendStatus a, s')

/-- `receive(n, T_RX)` on a channel (00_scope.md R14). -/
def receiveOn (channel n : Nat) (s : State) : Except Byte (List Byte) × State :=
  let (a, s') := askHost ⟨channel, .receive n s.params.tRx⟩ s
  (receivedBytes s.draws n a, s')

/-- The common checks that apply to an operation (60_exceptions.md R245). -/
structure Needs where
  /-- Host-only operation (30_encoding.md R94 condition 4). -/
  hostOnly : Bool := false
  /-- Takes IN, so IN_CAP bounds it (30_encoding.md R95). -/
  input : Bool := false
  /-- The transport family the handle must be bound to (10_state.md R35). -/
  kind : Option Kind := none
  /-- BUSY[h] must be 0 (10_state.md R36). -/
  idle : Bool := false
deriving DecidableEq, Repr

/-- The common checks in the order of 60_exceptions.md R245, steps 1 to 4: H < NH and host-only, IN_CAP, transport kind, busy. -/
def precheck (n : Needs) (h : Byte) (s : State) : Except Stop Slot :=
  match slotAt s h with
  | none => .error (.fault .illegalOp)
  | some sl =>
    if n.hostOnly && s.agent != .host then .error (.fault .illegalOp)
    else if n.input && decide (s.params.inCap < s.inPort.length) then .error (.refuse .inCap)
    else if n.kind.any fun k => k != sl.binding.kind then .error (.fault .wrongTransport)
    else if n.idle && sl.busy then .error (.fault .busy)
    else .ok sl

/-- The common checks and the one read of ADDR[h] at the start of an operation (10_state.md R34, 60_exceptions.md R245 steps 1 to 5). -/
def precheckAddr (n : Needs) (h : Byte) (s : State) : Except Stop (Slot × Byte) :=
  match precheck n h s with
  | .error e => .error e
  | .ok sl =>
    match sl.addr with
    | none => .error (.fault .addrUnset)
    | some a => .ok (sl, a)

/-- An operation on handle h that reads ADDR[h]: the common checks, then its body. -/
def onHandle (n : Needs) (h : Byte) (s : State) (body : Slot → Byte → State) : Answer :=
  match precheckAddr n h s with
  | .error e => .next (stop e s)
  | .ok (sl, a) => .next (body sl a)

/-- The reset event: ADDR UNSET, BUSY 0, no record; configuration, marks and the host's lists unchanged (70_reset_and_hazards.md R270, log 18). -/
def resetBlock (s : State) : State :=
  { s with slots := s.slots.map fun sl => Slot.fresh sl.binding, response := none }

/-- The operands are sampled when the operation is issued (20_memory.md R70). -/
def issue (r : Request) (s : State) : State := { s with agent := r.agent, inPort := r.input }

/-- The snapshot does not outlive its operation (10_state.md R30, log 12). -/
def retire (s : State) : State := { s with agent := .client, inPort := [] }

/-- Retirement of a step's answer. -/
def retireAnswer : Answer → Answer
  | .next s => .next (retire s)
  | .fault f => .fault f
  | .refused q => .refused q

/-- The state with the head of the total order taken off. -/
def dropEvent (s : State) : State := { s with pending := s.pending.tail }

/-- A request placed at the head of the total order (log 1). -/
def pushRequest (r : Request) (s : State) : State := { s with pending := .op r :: s.pending }

end Sys2Proof.Machine
end

