-- ==== Sys2Proof/Machine/Can.lean ====
section
/-! DEFINITION. The CAN frame codec (42_can.md): request frames, position reports, and the operations CANENC to CANRXCB. -/

namespace Sys2Proof.Machine

/-- The payload of a request of a declared length; a length outside 3, 4, 5 has none (42_can.md R190, R191). -/
def canPayload (len : Byte) (sel : Half) : Option (List Byte) :=
  if len = 3#8 then some []
  else if len = 4#8 then some [lo8 sel]
  else if len = 5#8 then some [lo8 sel, hi8 sel]
  else none

/-- `can_request(a, cmdsel, len, sel)`: BAD_COMMAND before BAD_LENGTH (42_can.md R190, R192). -/
def canRequest (k : CanCodes) (a cmd len : Byte) (sel : Half) : Except Reason (List Byte) :=
  match commandOfSelector cmd with
  | none => .error .badCommand
  | some c =>
    match canPayload len sel with
    | none => .error .badLength
    | some p => .ok ([len, a, cmdCode k c] ++ p)

/-- A position report carrying the given payload (30_encoding.md R104). -/
def canReportFrame (a p0 p1 p2 p3 : Byte) : List Byte :=
  [Config.canReportLength, a, Config.canGetValue, p0, p1, p2, p3]

/-- `can_report(s, a)`: length, address, length byte, command, then bytes 3 to 6 little-endian (42_can.md R194). -/
def canReport (s : List Byte) (a : Byte) : Except Reason Position :=
  if s.length < 7 then .error .shortFrame
  else if byteAt s 1 ≠ a then .error .addrMismatch
  else if byteAt s 0 ≠ Config.canReportLength then .error .reportLength
  else if byteAt s 2 ≠ Config.canGetValue then .error .reportCommand
  else .ok (le32 (byteAt s 3) (byteAt s 4) (byteAt s 5) (byteAt s 6))

/-- The encode-and-transmit that CANSEND and the CAN spellings perform (42_can.md R195). -/
def sendRequest (cmd len : Byte) (sel : Half) (h : Byte) (s : State) : Answer :=
  onHandle { kind := some .can } h s fun sl a =>
    match canRequest s.params.canCodes a cmd len sel with
    | .error q => respond (withFrame [] (rejectRecord .encode q)) s
    | .ok f =>
      match sendOn sl.binding.transport (.canTransmit f len (a.setWidth 11) 0#1 0#1) s with
      | (some x, s₁) => respond (withCanLabel a (withFrame f (transportRecord .txFail x))) s₁
      | (none, s₁) => respond (withCanLabel a (withFrame f okRecord)) s₁

/-- CANENC (42_can.md R190). -/
def execCanenc (cmd len : Byte) (sel : Half) (h : Byte) (s : State) : Answer :=
  onHandle {} h s fun _ a =>
    match canRequest s.params.canCodes a cmd len sel with
    | .error q => respond (withFrame [] (rejectRecord .encode q)) s
    | .ok f => respond (withCanLabel a (withFrame f okRecord)) s

/-- CANDEC (42_can.md R194). -/
def execCandec (h : Byte) (s : State) : Answer :=
  onHandle { input := true } h s fun _ a => respond (positionRecord (canReport s.inPort a)) s

/-- CANSEND (42_can.md R195). -/
def execCansend (cmd len : Byte) (sel : Half) (h : Byte) (s : State) : Answer :=
  sendRequest cmd len sel h s

/-- CANRXCB (42_can.md R196). -/
def execCanrxcb (h : Byte) (s : State) : Answer :=
  onHandle { hostOnly := true, input := true, kind := some .can } h s fun _ a =>
    respond (positionRecord (canReport s.inPort a)) s

end Sys2Proof.Machine
end

