-- ==== Sys2Proof/Machine/Crc.lean ====
section
/-! DEFINITION. The CRC-16/MODBUS engine and the operation CRC16 (40_crc.md).
The accumulator ACC of 10_state.md R38 is the argument these functions fold. -/

namespace Sys2Proof.Machine

/-- One of the 8 iterations: shift right by one, and XOR 0xA001 if the bit shifted out is 1 (40_crc.md R131). -/
def crcBit (acc : Half) : Half :=
  if acc.getLsbD 0 then (acc >>> 1) ^^^ Config.crcPoly else acc >>> 1

/-- n iterations (40_crc.md R131). -/
def crcBits : Nat → Half → Half
  | 0, acc => acc
  | n + 1, acc => crcBits n (crcBit acc)

/-- One input byte: XOR it into the low byte of ACC, then 8 iterations (40_crc.md R131). -/
def crcByte (acc : Half) (b : Byte) : Half := crcBits 8 (acc ^^^ b.setWidth 16)

/-- The accumulator after a byte sequence. -/
def crcFrom (acc : Half) (s : List Byte) : Half := s.foldl crcByte acc

/-- `crc16(s)` (40_crc.md R131). -/
def crc16 (s : List Byte) : Half := crcFrom Config.crcInit s

/-- Entry i of the 256-entry table of the byte-at-a-time formulation that 40_crc.md R132 admits. -/
def crcTableEntry (i : Byte) : Half := crcBits 8 (i.setWidth 16)

/-- One byte by table (40_crc.md R132). -/
def crcByteByTable (acc : Half) (b : Byte) : Half :=
  (acc >>> 8) ^^^ crcTableEntry (lo8 acc ^^^ b)

/-- The table formulation of crc16 (40_crc.md R132). -/
def crc16ByTable (s : List Byte) : Half := s.foldl crcByteByTable Config.crcInit

/-- `crcbytes(p)`, low byte first (40_crc.md R134). -/
def crcBytes (p : List Byte) : List Byte := [lo8 (crc16 p), hi8 (crc16 p)]

/-- `withcrc(p)` (40_crc.md R134). -/
def withCrc (p : List Byte) : List Byte := p ++ crcBytes p

/-- `crc_ok(s, k)`: the k-byte prefix of s is followed by its CRC, low byte first (40_crc.md R134). -/
def crcOk (s : List Byte) (k : Nat) : Bool :=
  decide (k + 2 ≤ s.length) && crc16 (s.take k) == le16 (byteAt s k) (byteAt s (k + 1))

/-- CRC16 (40_crc.md R130): IN_CAP, then the CRC of IN; no handle is used. -/
def execCrc16 (s : State) : Answer :=
  if s.params.inCap < s.inPort.length then .next (refuseWith .inCap s)
  else .next (respond { okRecord with crc := some (crc16 s.inPort) } s)

end Sys2Proof.Machine
end

