-- ==== Sys2Proof/Machine/Rs485.lean ====
section
/-! DEFINITION. The RS485 frame codec (41_rs485.md): frames, validation, position, and the operations R485ENC to R485RXCB. -/

namespace Sys2Proof.Machine

/-- The 8-byte request frame, the same layout for every function code (30_encoding.md R99, R100, 41_rs485.md R151). -/
def rs485Request (a fn : Byte) (reg val : Half) : List Byte :=
  withCrc [a, fn, hi8 reg, lo8 reg, hi8 val, lo8 val]

/-- A READ response carrying the given data bytes, the count in byte 2 (30_encoding.md R101). -/
def rs485ReadResponse (a : Byte) (data : List Byte) : List Byte :=
  withCrc ([a, funcCode .read, BitVec.ofNat 8 data.length] ++ data)

/-- Length of a write acknowledgement (30_encoding.md R109). -/
def writeAckLength : Nat := 8

/-- Length of a READ response, told from its byte 2 (30_encoding.md R109). -/
def readResponseLength (s : List Byte) : Nat := 5 + (byteAt s 2).toNat

/-- Step 1 of the validation, address then function code (41_rs485.md R154). -/
def validateHeader (s : List Byte) (a fn : Byte) : Except Reason Unit :=
  if s.length < 2 then .error .shortFrame
  else if byteAt s 0 ≠ a then .error .addrMismatch
  else if byteAt s 1 ≠ fn then .error .funcMismatch
  else .ok ()

/-- Step 2, read form (41_rs485.md R155). -/
def validateReadForm (s : List Byte) : Except Reason Unit :=
  if s.length < 3 then .error .shortFrame
  else if s.length < readResponseLength s then .error .shortFrame
  else if !crcOk s (3 + (byteAt s 2).toNat) then .error .crcMismatch
  else .ok ()

/-- Steps 2 and 3, write-acknowledgement form and echo (41_rs485.md R156, R157). -/
def validateAckForm (s : List Byte) (reg val : Half) : Except Reason Unit :=
  if s.length < writeAckLength then .error .shortFrame
  else if !crcOk s 6 then .error .crcMismatch
  else if [byteAt s 2, byteAt s 3, byteAt s 4, byteAt s 5] ≠ [hi8 reg, lo8 reg, hi8 val, lo8 val] then
    .error .echoMismatch
  else .ok ()

/-- `rs485_validate(s, a, 0x03, _, _)` (41_rs485.md R152). -/
def validateRead (s : List Byte) (a : Byte) : Except Reason Unit :=
  match validateHeader s a (funcCode .read) with
  | .error q => .error q
  | .ok _ => validateReadForm s

/-- `rs485_validate(s, a, 0x06, reg, val)` (41_rs485.md R152). -/
def validateAck (s : List Byte) (a : Byte) (reg val : Half) : Except Reason Unit :=
  match validateHeader s a (funcCode .writeSingle) with
  | .error q => .error q
  | .ok _ => validateAckForm s reg val

/-- `rs485_position(s, a)`: a validated READ response with byte count 4, bytes 3 to 6 big-endian (41_rs485.md R160). -/
def rs485Position (s : List Byte) (a : Byte) : Except Reason Position :=
  match validateRead s a with
  | .error q => .error q
  | .ok _ =>
    if byteAt s 2 ≠ 4#8 then .error .byteCount
    else .ok (be32 (byteAt s 3) (byteAt s 4) (byteAt s 5) (byteAt s 6))

/-- The position read request: register 0x0000 "position", count 2 (41_rs485.md R162). -/
def positionRequest (a : Byte) : List Byte :=
  rs485Request a (funcCode .read) (deviceRegAddr .position) 0x0002#16

/-- The single-register write round trip that R485WR and the SET485 spellings perform (41_rs485.md R161). -/
def writeRoundTrip (reg val : Half) (h : Byte) (s : State) : Answer :=
  onHandle { kind := some .rs485, idle := true } h s fun sl a =>
    let f := rs485Request a (funcCode .writeSingle) reg val
    match sendOn sl.binding.transport (.transmit f s.params.tTx) s with
    | (some x, s₁) => respond (withFrame f (transportRecord .txFail x)) s₁
    | (none, s₁) =>
      match receiveOn sl.binding.transport writeAckLength s₁ with
      | (.error x, s₂) => respond (withFrame f (transportRecord .rxFail x)) s₂
      | (.ok bytes, s₂) => respond (withFrame f (validationRecord (validateAck bytes a reg val))) s₂

/-- R485ENC (41_rs485.md R151). -/
def execR485enc (fn : Byte) (reg val : Half) (h : Byte) (s : State) : Answer :=
  onHandle {} h s fun _ a =>
    match funcOfCode fn with
    | none => respond (withFrame [] (rejectRecord .encode .badFunction)) s
    | some k => respond (withFrame (rs485Request a (funcCode k) reg val) okRecord) s

/-- R485CHK (41_rs485.md R153, R159). -/
def execR485chk (fn : Byte) (reg val : Half) (h : Byte) (s : State) : Answer :=
  onHandle { input := true } h s fun _ a =>
    match funcOfCode fn with
    | some .writeMulti => refuseWith .writeMultiResponse s
    | none => respond (rejectRecord .encode .badFunction) s
    | some .read => respond (validationRecord (validateRead s.inPort a)) s
    | some .writeSingle => respond (validationRecord (validateAck s.inPort a reg val)) s

/-- R485POS (41_rs485.md R160). -/
def execR485pos (h : Byte) (s : State) : Answer :=
  onHandle { input := true } h s fun _ a => respond (positionRecord (rs485Position s.inPort a)) s

/-- R485WR (41_rs485.md R161). -/
def execR485wr (reg val : Half) (h : Byte) (s : State) : Answer := writeRoundTrip reg val h s

/-- R485RDPOS (41_rs485.md R162). The receive length is 3 + 4 + 2. -/
def execR485rdpos (h : Byte) (s : State) : Answer :=
  onHandle { kind := some .rs485, idle := true } h s fun sl a =>
    let f := positionRequest a
    match sendOn sl.binding.transport (.transmit f s.params.tTx) s with
    | (some x, s₁) => respond (withPos Config.sentinel (withFrame f (transportRecord .txFail x))) s₁
    | (none, s₁) =>
      match receiveOn sl.binding.transport 9 s₁ with
      | (.error x, s₂) => respond (withPos Config.sentinel (withFrame f (transportRecord .rxFail x))) s₂
      | (.ok bytes, s₂) => respond (withFrame f (positionRecord (rs485Position bytes a))) s₂

/-- R485RDPOSA (41_rs485.md R163): BUSY[h] becomes 1 when transmitAsync answers ok. -/
def execR485rdposa (h : Byte) (s : State) : Answer :=
  onHandle { kind := some .rs485, idle := true } h s fun sl a =>
    let f := positionRequest a
    match sendOn sl.binding.transport (.transmitAsync f) s with
    | (some x, s₁) => respond (withFrame f (transportRecord .txFail x)) s₁
    | (none, s₁) => respond (withFrame f okRecord) (setBusyOf h true s₁)

/-- R485RXCB (41_rs485.md R164): BUSY[h] becomes 0 whatever the bytes are. -/
def execR485rxcb (h : Byte) (s : State) : Answer :=
  onHandle { hostOnly := true, input := true, kind := some .rs485 } h s fun _ a =>
    respond (positionRecord (rs485Position s.inPort a)) (setBusyOf h false s)

end Sys2Proof.Machine
end

