-- ==== Sys2Proof/Machine/ConfigCommands.lean ====
section
/-! DEFINITION. SETADDR and the configuration spellings (43_config.md).
A value is passed raw (R226), and an address-change command leaves ADDR[h] alone (R224). -/

namespace Sys2Proof.Machine

/-- SETADDR (43_config.md R223): F_BUSY before F_ADDR_ZERO, and ADDR[h] is not read. -/
def execSetaddr (a h : Byte) (s : State) : Answer :=
  match precheck { idle := true } h s with
  | .error e => .next (stop e s)
  | .ok _ =>
    if a = 0#8 then .next (raiseFault .addrZero s)
    else .next (respond okRecord (setAddrOf h a s))

/-- SET485ADDR (43_config.md R221). -/
def execSet485addr (v : Half) (h : Byte) (s : State) : Answer :=
  writeRoundTrip (deviceRegAddr .address) v h s

/-- SET485BAUD (43_config.md R221). -/
def execSet485baud (v : Half) (h : Byte) (s : State) : Answer :=
  writeRoundTrip (deviceRegAddr .baudrate) v h s

/-- SET485MODE (43_config.md R221). -/
def execSet485mode (v : Half) (h : Byte) (s : State) : Answer :=
  writeRoundTrip (deviceRegAddr .mode) v h s

/-- SET485RET (43_config.md R221); no range check on the return time (R226). -/
def execSet485ret (v : Half) (h : Byte) (s : State) : Answer :=
  writeRoundTrip (deviceRegAddr .returnTime) v h s

/-- SET485ZERO (43_config.md R221). -/
def execSet485zero (v : Half) (h : Byte) (s : State) : Answer :=
  writeRoundTrip (deviceRegAddr .zeroReset) v h s

/-- SET485DIR (43_config.md R221). -/
def execSet485dir (v : Half) (h : Byte) (s : State) : Answer :=
  writeRoundTrip (deviceRegAddr .direction) v h s

/-- CANGET (43_config.md R222). -/
def execCanget (h : Byte) (s : State) : Answer :=
  sendRequest (selectorOf .getValue) 4#8 0#16 h s

/-- CANSETID (43_config.md R222). -/
def execCansetid (v : Half) (h : Byte) (s : State) : Answer :=
  sendRequest (selectorOf .setId) 4#8 v h s

/-- CANSETBAUD (43_config.md R222). -/
def execCansetbaud (v : Half) (h : Byte) (s : State) : Answer :=
  sendRequest (selectorOf .setBaudrate) 4#8 v h s

/-- CANSETMODE (43_config.md R222). -/
def execCansetmode (v : Half) (h : Byte) (s : State) : Answer :=
  sendRequest (selectorOf .setMode) 4#8 v h s

/-- CANSETRET (43_config.md R222). -/
def execCansetret (v : Half) (h : Byte) (s : State) : Answer :=
  sendRequest (selectorOf .setReturnTime) 4#8 v h s

/-- CANSETZERO (43_config.md R222). -/
def execCansetzero (v : Half) (h : Byte) (s : State) : Answer :=
  sendRequest (selectorOf .setZero) 4#8 v h s

end Sys2Proof.Machine
end

