-- ==== Sys2Proof/Machine/Dispatch.lean ====
section
/-! DEFINITION. The meaning of every operation: one arm per constructor of `Instr`, each a direct call of the operation's own definition.
The operands IN and the issuing agent stand in the state's snapshot fields. -/

namespace Sys2Proof.Machine

/-- An operation performed on a state that holds its snapshot. -/
def exec (i : Instr) (s : State) : Host.Outcome State Fault Refusal :=
  match i with
  | .crc16 => Sys2Proof.Machine.execCrc16 s
  | .r485enc fn reg val h => Sys2Proof.Machine.execR485enc fn reg val h s
  | .r485chk fn reg val h => Sys2Proof.Machine.execR485chk fn reg val h s
  | .r485pos h => Sys2Proof.Machine.execR485pos h s
  | .r485wr reg val h => Sys2Proof.Machine.execR485wr reg val h s
  | .r485rdpos h => Sys2Proof.Machine.execR485rdpos h s
  | .r485rdposa h => Sys2Proof.Machine.execR485rdposa h s
  | .r485rxcb h => Sys2Proof.Machine.execR485rxcb h s
  | .canenc cmd len sel h => Sys2Proof.Machine.execCanenc cmd len sel h s
  | .candec h => Sys2Proof.Machine.execCandec h s
  | .cansend cmd len sel h => Sys2Proof.Machine.execCansend cmd len sel h s
  | .canrxcb h => Sys2Proof.Machine.execCanrxcb h s
  | .setaddr a h => Sys2Proof.Machine.execSetaddr a h s
  | .set485addr v h => Sys2Proof.Machine.execSet485addr v h s
  | .set485baud v h => Sys2Proof.Machine.execSet485baud v h s
  | .set485mode v h => Sys2Proof.Machine.execSet485mode v h s
  | .set485ret v h => Sys2Proof.Machine.execSet485ret v h s
  | .set485zero v h => Sys2Proof.Machine.execSet485zero v h s
  | .set485dir v h => Sys2Proof.Machine.execSet485dir v h s
  | .canget h => Sys2Proof.Machine.execCanget h s
  | .cansetid v h => Sys2Proof.Machine.execCansetid v h s
  | .cansetbaud v h => Sys2Proof.Machine.execCansetbaud v h s
  | .cansetmode v h => Sys2Proof.Machine.execCansetmode v h s
  | .cansetret v h => Sys2Proof.Machine.execCansetret v h s
  | .cansetzero v h => Sys2Proof.Machine.execCansetzero v h s

end Sys2Proof.Machine
end

