-- ==== Sys2Proof/Machine/Run.lean ====
section
/-! DEFINITION. Performing one event of the total order: a reset, or an operation word with its operands (20_memory.md R69, R70, R72).
The block fetches nothing (10_state.md R33): the next operation is the head of `pending` (log 1). -/

namespace Sys2Proof.Machine

/-- An operation word performed: F_ILLEGAL_OP for a word that names no operation (30_encoding.md R94), else the operation it names. -/
def runWord (w : OpWord) (s : State) : Answer :=
  match decode w with
  | .error _ => .next (raiseFault .illegalOp s)
  | .ok i => exec i s

/-- One event as one atomic step: a reset, or a request issued, performed and retired (20_memory.md R69). -/
def performEvent (e : Event) (s : State) : Answer :=
  match e with
  | .reset => .next (resetBlock s)
  | .op r => retireAnswer (runWord r.word (issue r s))

/-- The agent the operation map names for a word: the host for R485RXCB and CANRXCB, else a client (30_encoding.md R93). -/
def agentOfWord (w : OpWord) : Agent :=
  let op := (fieldsOfWord w).op
  if op = opcodeCode .r485rxcb then .host
  else if op = opcodeCode .canrxcb then .host
  else .client

/-- The request with a given word, issued by the agent the word belongs to, with an empty IN. -/
def requestOfWord (w : OpWord) : Request :=
  { agent := agentOfWord w, word := w, input := [] }

/-- The 64-bit word of an `nbits`-bit pattern, the bits above `nbits` zero (log 19). -/
def wordOfTable (nbits w : Nat) : OpWord := BitVec.ofNat 64 (w % 2 ^ nbits)

end Sys2Proof.Machine
end

