-- ==== Sys2Proof/Machine/Step.lean ====
section
/-! DEFINITION. One step of the machine: the head of the total order is performed.
With nothing pending the block waits: it starts nothing by itself (10_state.md R33, log 17). -/

namespace Sys2Proof.Machine

/-- One atomic step (20_memory.md R69, R72). -/
def step (s : State) : Host.Outcome State Fault Refusal :=
  match s.pending with
  | [] => .next s
  | e :: _ => performEvent e (dropEvent s)

/-- The state with a request for the given word at the head of the total order (log 1). -/
def State.withFetchWord (s : State) (nbits w : Nat) : State :=
  pushRequest (requestOfWord (wordOfTable nbits w)) s

end Sys2Proof.Machine
end

