-- ==== Sys2Proof/Machine/OperationMap.lean ====
section
/-! DEFINITION. What the spec's tables say of each operation: who may issue it, what it takes, which checks apply (30_encoding.md R93, 60_exceptions.md R245 and R251).
The meanings do not read these tables; the assembler and the statements do. -/

namespace Sys2Proof.Machine

/-- The operation takes a byte sequence IN (30_encoding.md R93). -/
def takesInput : Instr → Bool
  | .crc16 | .r485chk _ _ _ _ | .r485pos _ | .r485rxcb _ | .candec _ | .canrxcb _ => true
  | _ => false

/-- Only the host issues the operation (30_encoding.md R93). -/
def hostOnly : Instr → Bool
  | .r485rxcb _ | .canrxcb _ => true
  | _ => false

/-- The operation reads ADDR[h] (10_state.md R34). -/
def readsAddress : Instr → Bool
  | .crc16 | .setaddr _ _ => false
  | _ => true

/-- The register write a transaction of the R485WR kind performs: register, value, handle (41_rs485.md R161, 43_config.md R221). -/
def registerWrite? : Instr → Option (Half × Half × Byte)
  | .r485wr reg val h => some (reg, val, h)
  | .set485addr v h => some (0x0004#16, v, h)
  | .set485baud v h => some (0x0005#16, v, h)
  | .set485mode v h => some (0x0006#16, v, h)
  | .set485ret v h => some (0x0007#16, v, h)
  | .set485zero v h => some (0x0008#16, v, h)
  | .set485dir v h => some (0x0009#16, v, h)
  | _ => none

/-- The request a transaction of the CANSEND kind sends: selector, length, selection, handle (42_can.md R195, 43_config.md R222). -/
def canRequest? : Instr → Option (Byte × Byte × Half × Byte)
  | .cansend cmd len sel h => some (cmd, len, sel, h)
  | .canget h => some (0#8, 4#8, 0#16, h)
  | .cansetid v h => some (1#8, 4#8, v, h)
  | .cansetbaud v h => some (2#8, 4#8, v, h)
  | .cansetmode v h => some (3#8, 4#8, v, h)
  | .cansetret v h => some (4#8, 4#8, v, h)
  | .cansetzero v h => some (5#8, 4#8, v, h)
  | _ => none

/-- The transport family a transaction or a delivery needs (10_state.md R35). -/
def transportOf? : Instr → Option Kind
  | .r485rdpos _ | .r485rdposa _ | .r485rxcb _ => some .rs485
  | .canrxcb _ => some .can
  | i => if (registerWrite? i).isSome then some .rs485
    else if (canRequest? i).isSome then some .can else none

/-- The operation faults while BUSY[h] = 1 (10_state.md R36). -/
def needsIdle : Instr → Bool
  | .r485rdpos _ | .r485rdposa _ | .setaddr _ _ => true
  | i => (registerWrite? i).isSome

/-- The operation is a pure codec operation: no host call, no state but the record (41_rs485.md R150, 10_state.md R35). -/
def isCodec : Instr → Bool
  | .crc16 | .r485enc _ _ _ _ | .r485chk _ _ _ _ | .r485pos _ | .canenc _ _ _ _ | .candec _ => true
  | _ => false

end Sys2Proof.Machine
end

