-- ==== Sys2Proof/Machine/Assembler.lean ====
section
/-! DEFINITION. The assembler of 30_encoding.md R97, with the configuration spellings of 43_config.md R221 and R222.
A line is a mnemonic, its operands separated by commas, and for an operation that takes IN the bytes in braces (log 22).
It is outside the step: it says which word and which bytes a line of a program stands for. -/

namespace Sys2Proof.Machine

/-- The opening brace of an IN byte sequence. -/
def openBrace : Char := Char.ofNat 123

/-- The closing brace of an IN byte sequence. -/
def closeBrace : Char := Char.ofNat 125

/-- The text without its outer spaces. -/
def trimSpaces (t : List Char) : List Char :=
  ((t.dropWhile (· == ' ')).reverse.dropWhile (· == ' ')).reverse

/-- The value of a hexadecimal digit, either case. -/
def digitValue (c : Char) : Option Nat :=
  if '0'.toNat ≤ c.toNat ∧ c.toNat ≤ '9'.toNat then some (c.toNat - '0'.toNat)
  else if 'A'.toNat ≤ c.toNat ∧ c.toNat ≤ 'F'.toNat then some (c.toNat - 'A'.toNat + 10)
  else if 'a'.toNat ≤ c.toNat ∧ c.toNat ≤ 'f'.toNat then some (c.toNat - 'a'.toNat + 10)
  else none

/-- Digits of a base read after a value. -/
def digitsFrom (base : Nat) : Nat → List Char → Option Nat
  | acc, [] => some acc
  | acc, c :: cs =>
    match digitValue c with
    | none => none
    | some d => if d < base then digitsFrom base (acc * base + d) cs else none

/-- A non-empty run of digits of a base. -/
def digitsOf (base : Nat) : List Char → Option Nat
  | [] => none
  | c :: cs => digitsFrom base 0 (c :: cs)

/-- A number: hexadecimal with `0x`, or decimal (30_encoding.md R97). -/
def numberOf : List Char → Option Nat
  | '0' :: 'x' :: cs => digitsOf 16 cs
  | cs => digitsOf 10 cs

/-- A number that fits a field of w bits (30_encoding.md R91). -/
def fieldOf (w : Nat) (t : List Char) : Option (BitVec w) :=
  match numberOf t with
  | none => none
  | some n => if n < 2 ^ w then some (BitVec.ofNat w n) else none

/-- A handle operand `h<n>` (30_encoding.md R97).
DESIGN CHOICE: n is read in decimal only; R97 does not say whether it may be hexadecimal (log 22). -/
def handleOf : List Char → Option Byte
  | 'h' :: cs =>
    match digitsOf 10 cs with
    | none => none
    | some n => if n < 256 then some (BitVec.ofNat 8 n) else none
  | _ => none

/-- A function code, by name or as a number (30_encoding.md R97). -/
def functionOf (t : List Char) : Option Byte :=
  if t = "READ".toList then some (funcCode .read)
  else if t = "WRITE_SINGLE".toList then some (funcCode .writeSingle)
  else if t = "WRITE_MULTI".toList then some (funcCode .writeMulti)
  else fieldOf 8 t

/-- A CAN command selector, by name (30_encoding.md R97), or as a number as the vectors of 95_test_vectors.md write it (log 22). -/
def selectorOfText (t : List Char) : Option Byte :=
  if t = "GET_VALUE".toList then some (selectorOf .getValue)
  else if t = "SET_ID".toList then some (selectorOf .setId)
  else if t = "SET_BAUDRATE".toList then some (selectorOf .setBaudrate)
  else if t = "SET_MODE".toList then some (selectorOf .setMode)
  else if t = "SET_RETURN_TIME".toList then some (selectorOf .setReturnTime)
  else if t = "SET_ZERO".toList then some (selectorOf .setZero)
  else fieldOf 8 t

/-- One hexadecimal byte of a byte sequence. -/
def byteOfText (t : List Char) : Option Byte :=
  if t.length = 2 then (digitsOf 16 t).map (BitVec.ofNat 8) else none

/-- The bytes between the braces, separated by spaces (30_encoding.md R97). -/
def bytesOfText (t : List Char) : Option (List Byte) :=
  ((t.splitOn ' ').filter (· != [])).mapM byteOfText

/-- An operation without operands but IN: CRC16. -/
def mnemonicBare (m : String) : Option Instr :=
  if m = "CRC16" then some .crc16 else none

/-- An operation whose one operand is a handle. -/
def mnemonicHandle (m : String) : Option (Byte → Instr) :=
  if m = "R485POS" then some .r485pos
  else if m = "R485RDPOS" then some .r485rdpos
  else if m = "R485RDPOSA" then some .r485rdposa
  else if m = "R485RXCB" then some .r485rxcb
  else if m = "CANDEC" then some .candec
  else if m = "CANRXCB" then some .canrxcb
  else if m = "CANGET" then some .canget
  else none

/-- An operation with a handle and one 16-bit value. -/
def mnemonicValue (m : String) : Option (Half → Byte → Instr) :=
  if m = "SET485ADDR" then some .set485addr
  else if m = "SET485BAUD" then some .set485baud
  else if m = "SET485MODE" then some .set485mode
  else if m = "SET485RET" then some .set485ret
  else if m = "SET485ZERO" then some .set485zero
  else if m = "SET485DIR" then some .set485dir
  else if m = "CANSETID" then some .cansetid
  else if m = "CANSETBAUD" then some .cansetbaud
  else if m = "CANSETMODE" then some .cansetmode
  else if m = "CANSETRET" then some .cansetret
  else if m = "CANSETZERO" then some .cansetzero
  else none

/-- The operation of a mnemonic and its operand texts, after the forms of R97, R221 and R222. -/
def instrOfText (m : String) (ops : List (List Char)) : Option Instr :=
  match ops with
  | [] => mnemonicBare m
  | [x] => do
    let mk ← mnemonicHandle m
    return mk (← handleOf x)
  | [x, y] =>
    if m = "SETADDR" then do
      let h ← handleOf x
      return .setaddr (← fieldOf 8 y) h
    else do
      let mk ← mnemonicValue m
      let h ← handleOf x
      return mk (← fieldOf 16 y) h
  | [x, y, z] =>
    if m = "R485WR" then do
      let h ← handleOf x
      let reg ← fieldOf 16 y
      return .r485wr reg (← fieldOf 16 z) h
    else none
  | [x, y, z, u] =>
    if m = "R485ENC" ∨ m = "R485CHK" then do
      let h ← handleOf x
      let fn ← functionOf y
      let reg ← fieldOf 16 z
      let val ← fieldOf 16 u
      return if m = "R485ENC" then .r485enc fn reg val h else .r485chk fn reg val h
    else if m = "CANENC" ∨ m = "CANSEND" then do
      let h ← handleOf x
      let cmd ← selectorOfText y
      let len ← fieldOf 8 z
      let sel ← fieldOf 16 u
      return if m = "CANENC" then .canenc cmd len sel h else .cansend cmd len sel h
    else none
  | _ => none

/-- The operand texts of the part of a line before its braces: the last comma stands before the braces where there are any. -/
def operandTexts (braces : Bool) (t : List Char) : Option (List (List Char)) :=
  let ts := (t.splitOn ',').map trimSpaces
  if ts = [[]] then some []
  else if braces then (if ts.getLast? = some [] then some ts.dropLast else none)
  else some ts

/-- The text between the braces, or nothing for a line without them; a line with more after the closing brace has none. -/
def bracedText (t : List Char) : Option (Option (List Char)) :=
  match t.dropWhile (· != openBrace) with
  | [] => some none
  | _ :: rest =>
    let inside := rest.takeWhile (· != closeBrace)
    if (rest.dropWhile (· != closeBrace)).length = 1 then some (some inside) else none

/-- One line assembled: the operation and its IN byte sequence (30_encoding.md R97). -/
def assembleInstr (line : String) : Option (Instr × List Byte) := do
  let t := trimSpaces line.toList
  let m := String.ofList (t.takeWhile (· != ' '))
  let rest := t.dropWhile (· != ' ')
  let inside ← bracedText rest
  let ops ← operandTexts inside.isSome (rest.takeWhile (· != openBrace))
  let i ← instrOfText m ops
  match inside with
  | none => if takesInput i then none else some (i, [])
  | some text => if takesInput i then (bytesOfText text).map fun b => (i, b) else none

/-- One line assembled to its operation word and its IN byte sequence (30_encoding.md R97). -/
def assemble (line : String) : Option (OpWord × List Byte) :=
  (assembleInstr line).map fun p => (encode p.1, p.2)

end Sys2Proof.Machine
end

