-- ==== Sys2Proof/Safety.lean ====
section
/-! DEFINITION. What counts as a safe run, and the invariant of the block, in the terms the statements use. -/

namespace Sys2Proof.Machine

/-- Neither mark is set: the only states a claim about the hardware may rest on (60_exceptions.md R250, R252).
A claim about the hardware asks for it, since the operation after a fault is one the source gives no meaning to (log 2). -/
def State.Final (s : State) : Prop := s.faultMark = none ∧ s.refusedMark = none

/-- Handle h is slot sl and holds the address a: the boot requirement of 70_reset_and_hazards.md R272 is met. -/
def Configured (s : State) (h : Byte) (sl : Slot) (a : Byte) : Prop :=
  slotAt s h = some sl ∧ sl.addr = some a

/-- The input fits the port (30_encoding.md R95). -/
def InputFits (s : State) : Prop := s.inPort.length ≤ s.params.inCap

/-- The four bytes of a position, most significant first: the data of a position read response (41_rs485.md R160). -/
def bigEndianBytes (p : Position) : List Byte :=
  [p.extractLsb' 24 8, p.extractLsb' 16 8, p.extractLsb' 8 8, p.extractLsb' 0 8]

/-- The 9-byte position read response of a device at address a (30_encoding.md R101, 41_rs485.md R160). -/
def positionFrame (a : Byte) (p : Position) : List Byte := rs485ReadResponse a (bigEndianBytes p)

/-- The 7-byte position report of a device at address a (30_encoding.md R104). -/
def positionReport (a : Byte) (p : Position) : List Byte :=
  canReportFrame a (p.extractLsb' 0 8) (p.extractLsb' 8 8) (p.extractLsb' 16 8) (p.extractLsb' 24 8)

/-- Bit k of byte i flipped. -/
def flipBit (f : List Byte) (i k : Nat) : List Byte := f.set i (byteAt f i ^^^ (1#8 <<< k))

/-- A slot is as the operations leave it: ADDR is not 0x00 (10_state.md R34), and a handle with an asynchronous read in flight is an RS485 handle with an address (41_rs485.md R163). -/
def Slot.Ok (sl : Slot) : Prop :=
  sl.addr ≠ some 0#8 ∧ (sl.busy = true → sl.binding.kind = .rs485 ∧ sl.addr.isSome = true)

/-- OUT[i] is 0x00 at and above OLEN (20_memory.md R61). -/
def outPadded (n : BitVec 4) (o : Vector Byte 8) : Prop :=
  n.toNat ≤ 8 ∧ ∀ i : Fin 8, n.toNat ≤ i.val → o[i] = 0#8

/-- The form of a response record (10_state.md R39, 60_exceptions.md R241 to R243): STATUS = OK just when REASON = NONE, XSTAT just with TRANSPORT, OLEN and OUT together and padded, POS the sentinel on every failure, CANID, IDE and RTR together, the latter two 0. -/
structure Response.Ok (r : Response) : Prop where
  status_ok : r.status = .ok ↔ r.reason = .none
  xstat_transport : r.xstat.isSome = true ↔ r.status = .transport
  frame : (r.olen = none ∧ r.out = none) ∨ ∃ n o, r.olen = some n ∧ r.out = some o ∧ outPadded n o
  sentinel : r.status ≠ .ok → r.pos = none ∨ r.pos = some Config.sentinel
  label : (r.canId = none ∧ r.ide = none ∧ r.rtr = none) ∨
    (∃ id, r.canId = some id ∧ id.toNat < 256) ∧ r.ide = some 0#1 ∧ r.rtr = some 0#1

/-- The invariant of the block: 1 ≤ NH ≤ 256 and the parameters are admitted (00_scope.md R8), every slot and the record have their form, the record's XSTAT is a byte of the parameter XSTAT (R8, 93_implementation_defined.md K6), and no host refusal of an unmodelled instruction stands as a mark. -/
structure State.Inv (s : State) : Prop where
  handles : 1 ≤ s.nh ∧ s.nh ≤ 256
  params : s.params.Valid = true
  slots : ∀ sl ∈ s.slots, sl.Ok
  record : ∀ r, s.response = some r → r.Ok
  xstat : ∀ r x, s.response = some r → r.xstat = some x → x ∈ s.params.xstat
  marks : s.refusedMark = none ∨ s.refusedMark = some .writeMultiResponse ∨ s.refusedMark = some .inCap

end Sys2Proof.Machine
end

