-- ==== Sys2Proof/Certificates/Slice0/Obligations.lean ====
section
/-! DEFINITION. The statements for the provers.
`Configured s h sl a` says that handle h is slot sl with ADDR[h] = a; `InputFits s` says len(IN) ≤ IN_CAP. -/

open Sys2Proof Sys2Proof.Machine

/-! ## Reset, steps and words -/

/-- 10_state.md R45 with 70_reset_and_hazards.md R270: the whole state a reset event leaves, and what a run starts from. ACC has no field of State to reset. That the host's lists stay is log 18; the snapshot fields (log 12) are between operations. -/
def Obligations.ResetLeavesTheResetValues : Prop :=
  (∀ (s : State) (rest : List Event), s.pending = .reset :: rest →
    step s = .next { s with
      pending := rest, response := none
      slots := s.slots.map fun sl => { sl with addr := none, busy := false } }) ∧
  (∀ sl ∈ State.reset.slots, sl.addr = none ∧ sl.busy = false) ∧
  State.reset.response = none ∧ State.reset.faultMark = none ∧ State.reset.refusedMark = none

/-- 20_memory.md R69, R70, R72: a step takes the head of the total order, samples its operands, performs the decoded operation, and the snapshot does not outlive it. -/
def Obligations.StepPerformsTheDecodedOperation : Prop :=
  ∀ (s : State) (r : Request) (rest : List Event) (i : Instr),
    s.pending = .op r :: rest → decode r.word = .ok i →
    step s = retireAnswer (exec i { s with pending := rest, agent := r.agent, inPort := r.input }) ∧
    ∀ t : State, retireAnswer (.next t) = .next { t with agent := .client, inPort := [] }

/-- 30_encoding.md R94 with 60_exceptions.md R250: a word that names no operation sets the FAULT mark to F_ILLEGAL_OP, writes no record and changes no other state. -/
def Obligations.IllegalWordOnlySetsTheFaultMark : Prop :=
  ∀ (s : State) (r : Request) (rest : List Event) (e : DecodeError),
    s.pending = .op r :: rest → decode r.word = .error e →
    step s = .next { s with pending := rest, faultMark := some .illegalOp, agent := .client, inPort := [] }

/-- 30_encoding.md R93, R94: the legal words are those of the thirteen rows (match, mask) of opcode_table.json. -/
def Obligations.LegalWordsAreTheOpcodeTable : Prop :=
  ∀ w : OpWord, (∃ i, decode w = .ok i) ↔
    ∃ row ∈ ([(0x01#64, 0xFFFFFFFFFFFFFFFF#64), (0x10#64, 0x0000000000FF00FF#64),
      (0x11#64, 0x0000000000FF00FF#64), (0x12#64, 0x00FFFFFFFFFFFFFF#64),
      (0x18#64, 0x0000000000FFFFFF#64), (0x19#64, 0x00FFFFFFFFFFFFFF#64),
      (0x1A#64, 0x00FFFFFFFFFFFFFF#64), (0x1B#64, 0x00FFFFFFFFFFFFFF#64),
      (0x20#64, 0x00FFFF00000000FF#64), (0x21#64, 0x00FFFFFFFFFFFFFF#64),
      (0x28#64, 0x00FFFF00000000FF#64), (0x29#64, 0x00FFFFFFFFFFFFFF#64),
      (0x30#64, 0x00FFFFFFFFFF00FF#64)] : List (OpWord × OpWord)), w &&& row.2 = row.1

/-- Words written out in spec/ decode to the operations they stand for (30_encoding.md R97, 95_test_vectors.md). -/
def Obligations.WordsOfTheSpecDecode : Prop :=
  decode 0x0000000000000001#64 = .ok .crc16 ∧
  decode 0x0000020000000310#64 = .ok (.r485enc 0x03#8 0x0000#16 0x0002#16 0#8) ∧
  decode 0x0056781234000311#64 = .ok (.r485chk 0x03#8 0x1234#16 0x5678#16 0#8) ∧
  decode 0x010000000000001B#64 = .ok (.r485rxcb 1#8) ∧
  decode 0x0000001234050020#64 = .ok (.canenc 0#8 5#8 0x1234#16 0#8) ∧
  decode 0x0100000102050328#64 = .ok (.cansend 3#8 5#8 0x0102#16 1#8) ∧
  decode 0x010000000000FF30#64 = .ok (.setaddr 0xFF#8 1#8) ∧
  decode 0x0000140007000018#64 = .ok (.set485ret 0x0014#16 0#8) ∧
  decode 0x0100000000000001#64 = .error (.unusedField 0x01#8) ∧
  decode 0x0000000000000002#64 = .error (.unknownOp 0x02#8)

/-- Decoding gives back every well-formed operation from its word, with every operand at every value. -/
def Obligations.DecodeOfEncodeIsTheOperation : Prop :=
  ∀ (nh : Nat) (i : Instr), i.WellFormed nh = true → decode (encode i) = .ok i

/-- 30_encoding.md R94: every legal word names exactly one operation, and no bit of it is dropped. -/
def Obligations.EncodeOfDecodeIsTheWord : Prop :=
  ∀ (w : OpWord) (i : Instr), decode w = .ok i → encode i = w ∧ i.decoderSpelling = true

/-- 43_config.md R220 to R222: a configuration command is its expansion: the same word, and the same effect. -/
def Obligations.ConfigCommandsAreTheirExpansions : Prop :=
  ∀ (i : Instr) (s : State), encode (expand i) = encode i ∧ exec (expand i) s = exec i s ∧
    (registerWrite? i).isSome = (registerWrite? (expand i)).isSome ∧
    (∀ p, registerWrite? i = some p → expand i = .r485wr p.1 p.2.1 p.2.2) ∧
    (∀ p, canRequest? i = some p → expand i = .cansend p.1 p.2.1 p.2.2.1 p.2.2.2)

/-- 30_encoding.md R97: lines of assembler text and the words and bytes the spec gives for them. -/
def Obligations.AssemblerLinesGiveTheSpecsWords : Prop :=
  assemble "R485ENC h0, READ, 0x0000, 0x0002" = some (0x0000020000000310#64, []) ∧
  assemble "R485WR h0, 0x0007, 20" = some (0x0000140007000018#64, []) ∧
  assemble "SET485RET h0, 20" = some (0x0000140007000018#64, []) ∧
  assemble "CANSEND h1, GET_VALUE, 4, 0" = some (0x0100000000040028#64, []) ∧
  assemble "CANGET h1" = some (0x0100000000040028#64, []) ∧
  assemble "SETADDR h1, 0xFF" = some (0x010000000000FF30#64, [])

/-! ## CRC-16 -/

/-- 40_crc.md R131, bit for bit: the empty sequence, and one more byte. -/
def Obligations.Crc16IsTheBitwiseAlgorithm : Prop :=
  crc16 [] = 0xFFFF#16 ∧ ∀ (s : List Byte) (b : Byte),
    crc16 (s ++ [b]) =
      Nat.iterate (fun acc : BitVec 16 =>
        if acc.getLsbD 0 = true then (acc >>> 1) ^^^ 0xA001#16 else acc >>> 1) 8
        (crc16 s ^^^ b.setWidth 16)

/-- 40_crc.md R132: the 256-entry table formulation gives the same 16-bit result for every byte sequence. -/
def Obligations.TableCrcEqualsBitwiseCrc : Prop :=
  ∀ s : List Byte, crc16ByTable s = crc16 s

/-- 40_crc.md R135 property 3, with R134: a sequence followed by its own CRC, low byte first, has CRC 0 and passes the check. -/
def Obligations.CrcOfSequenceWithItsCrcIsZero : Prop :=
  ∀ p : List Byte, crc16 (withCrc p) = 0x0000#16 ∧ crcOk (withCrc p) p.length = true

/-- 40_crc.md R135 property 4: one bit flipped anywhere in a sequence with its CRC fails the check. -/
def Obligations.CrcDetectsEverySingleBitFlip : Prop :=
  ∀ (p : List Byte) (i k : Nat), i < p.length + 2 → k < 8 →
    crcOk (flipBit (withCrc p) i k) p.length = false

/-- 40_crc.md R130: CRC16 completes with the CRC of IN, on every input that fits; a longer one is refused. -/
def Obligations.Crc16OperationGivesTheCrc : Prop :=
  ∀ s : State,
    (InputFits s → exec .crc16 s = .next { s with
        response := some { status := .ok, reason := .none, crc := some (crc16 s.inPort) } }) ∧
    (¬ InputFits s → exec .crc16 s = .next { s with refusedMark := some .inCap })

/-! ## The common checks -/

/-- 30_encoding.md R94 conditions 3 and 4, 60_exceptions.md R253: H ≥ NH, and a client issuing a host-only operation, are illegal operations. -/
def Obligations.HandleRangeAndHostOnlyAreChecked : Prop :=
  ∀ (i : Instr) (h : Byte) (s : State), i.handle? = some h →
    s.nh ≤ h.toNat ∨ (hostOnly i = true ∧ s.agent = .client) →
    exec i s = .next { s with faultMark := some .illegalOp }

/-- 30_encoding.md R95: an operation marked IN refuses an input longer than IN_CAP, after R94 and before any other check. -/
def Obligations.LongInputIsRefused : Prop :=
  ∀ (i : Instr) (s : State), takesInput i = true → (∀ h, i.handle? = some h → h.toNat < s.nh) →
    (hostOnly i = true → s.agent = .host) → ¬ InputFits s →
    exec i s = .next { s with refusedMark := some .inCap }

/-- 10_state.md R35: a transaction or delivery on a handle of the other kind raises F_WRONG_TRANSPORT, before BUSY and ADDR are looked at. -/
def Obligations.WrongTransportFaults : Prop :=
  ∀ (i : Instr) (h : Byte) (k : Kind) (sl : Slot) (s : State),
    i.handle? = some h → transportOf? i = some k → slotAt s h = some sl → sl.binding.kind ≠ k →
    (hostOnly i = true → s.agent = .host) → (takesInput i = true → InputFits s) →
    exec i s = .next { s with faultMark := some .wrongTransport }

/-- 10_state.md R36: R485WR and its spellings, R485RDPOS, R485RDPOSA and SETADDR on a busy handle raise F_BUSY and change nothing else, whatever ADDR[h] is. -/
def Obligations.BusyHandleFaults : Prop :=
  ∀ (i : Instr) (h : Byte) (sl : Slot) (s : State),
    i.handle? = some h → needsIdle i = true → slotAt s h = some sl → sl.busy = true →
    (∀ k, transportOf? i = some k → sl.binding.kind = k) →
    exec i s = .next { s with faultMark := some .busy }

/-- 10_state.md R34: an operation that reads ADDR[h] while it is UNSET raises F_ADDR_UNSET and changes nothing else. -/
def Obligations.UnsetAddressFaults : Prop :=
  ∀ (i : Instr) (h : Byte) (sl : Slot) (s : State),
    i.handle? = some h → readsAddress i = true → slotAt s h = some sl → sl.addr = none →
    (hostOnly i = true → s.agent = .host) → (takesInput i = true → InputFits s) →
    (∀ k, transportOf? i = some k → sl.binding.kind = k) →
    (needsIdle i = true → sl.busy = false) →
    exec i s = .next { s with faultMark := some .addrUnset }

/-! ## RS485 codec -/

/-- 30_encoding.md R99, R100 with 41_rs485.md R151: the request frame byte by byte, for the three function codes. -/
def Obligations.R485encBuildsTheRequestFrame : Prop :=
  ∀ (s : State) (h : Byte) (sl : Slot) (a fn : Byte) (reg val : Half),
    Configured s h sl a → fn ∈ [0x03#8, 0x06#8, 0x10#8] →
    let body : List Byte := [a, fn, reg.extractLsb' 8 8, reg.extractLsb' 0 8,
      val.extractLsb' 8 8, val.extractLsb' 0 8]
    exec (.r485enc fn reg val h) s = .next { s with
        response := some { status := .ok, reason := .none, olen := some 8#4,
                           out := some #v[a, fn, reg.extractLsb' 8 8, reg.extractLsb' 0 8, val.extractLsb' 8 8,
                           val.extractLsb' 0 8, (crc16 body).extractLsb' 0 8, (crc16 body).extractLsb' 8 8] } }

/-- 41_rs485.md R151: any other function code is rejected with ENCODE/BAD_FUNCTION, OLEN = 0 and OUT all 0x00. -/
def Obligations.R485encRejectsOtherFunctionCodes : Prop :=
  ∀ (s : State) (h : Byte) (sl : Slot) (a fn : Byte) (reg val : Half),
    Configured s h sl a → fn ∉ [0x03#8, 0x06#8, 0x10#8] →
    exec (.r485enc fn reg val h) s = .next { s with
        response := some { status := .encode, reason := .badFunction, olen := some 0#4,
                           out := some #v[0#8, 0#8, 0#8, 0#8, 0#8, 0#8, 0#8, 0#8] } }

/-- 41_rs485.md R152: R485CHK completes with the outcome of the first failing check of rs485_validate, in its order, for both forms. -/
def Obligations.R485chkReportsTheFirstFailure : Prop :=
  ∀ (s : State) (h : Byte) (sl : Slot) (a : Byte) (reg val : Half),
    Configured s h sl a → InputFits s →
    let f := s.inPort
    let len := f.length
    let n := (f.getD 2 0#8).toNat
    let inv (q : Reason) : Response := { status := .invalid, reason := q }
    (exec (.r485chk 0x03#8 reg val h) s = .next { s with
        response := some (
      if len < 2 then inv .shortFrame
      else if f.getD 0 0#8 ≠ a then inv .addrMismatch
      else if f.getD 1 0#8 ≠ 0x03#8 then inv .funcMismatch
      else if len < 3 then inv .shortFrame
      else if len < 5 + n then inv .shortFrame
      else if crc16 (f.take (3 + n)) ≠ f.getD (4 + n) 0#8 ++ f.getD (3 + n) 0#8 then inv .crcMismatch
      else { status := .ok, reason := .none }) }) ∧
    (exec (.r485chk 0x06#8 reg val h) s = .next { s with
        response := some (
      if len < 2 then inv .shortFrame
      else if f.getD 0 0#8 ≠ a then inv .addrMismatch
      else if f.getD 1 0#8 ≠ 0x06#8 then inv .funcMismatch
      else if len < 8 then inv .shortFrame
      else if crc16 (f.take 6) ≠ f.getD 7 0#8 ++ f.getD 6 0#8 then inv .crcMismatch
      else if [f.getD 2 0#8, f.getD 3 0#8, f.getD 4 0#8, f.getD 5 0#8] ≠
          [reg.extractLsb' 8 8, reg.extractLsb' 0 8, val.extractLsb' 8 8, val.extractLsb' 0 8] then
        inv .echoMismatch
      else { status := .ok, reason := .none }) })

/-- 41_rs485.md R156 to R158: a write acknowledgement is accepted exactly when its first 8 bytes are the request that was sent; bytes after the frame take part in no check. -/
def Obligations.R485chkAcceptsExactlyTheEcho : Prop :=
  ∀ (s : State) (h : Byte) (sl : Slot) (a : Byte) (reg val : Half),
    Configured s h sl a → InputFits s →
    ∃ r, exec (.r485chk 0x06#8 reg val h) s = .next { s with response := some r } ∧
      (r = { status := .ok, reason := .none } ∨ ∃ q, r = { status := .invalid, reason := q } ∧ q ≠ .none) ∧
      (r.status = .ok ↔ s.inPort.take 8 = rs485Request a 0x06#8 reg val)

/-- 41_rs485.md R155, R158: a READ response is accepted exactly when the input begins with a whole response frame of some 0 to 255 data bytes. -/
def Obligations.R485chkAcceptsExactlyAReadResponse : Prop :=
  ∀ (s : State) (h : Byte) (sl : Slot) (a : Byte) (reg val : Half),
    Configured s h sl a → InputFits s →
    ∃ r, exec (.r485chk 0x03#8 reg val h) s = .next { s with response := some r } ∧
      (r = { status := .ok, reason := .none } ∨ ∃ q, r = { status := .invalid, reason := q } ∧ q ≠ .none) ∧
      (r.status = .ok ↔ ∃ data extra : List Byte, data.length ≤ 255 ∧
        s.inPort = rs485ReadResponse a data ++ extra)

/-- 41_rs485.md R159 and R153: R485CHK with fn = 0x10 refuses with Q_WRITE_MULTI_RESPONSE; any other code outside the set is rejected with BAD_FUNCTION. -/
def Obligations.R485chkRefusesWriteMulti : Prop :=
  ∀ (s : State) (h : Byte) (sl : Slot) (a fn : Byte) (reg val : Half),
    Configured s h sl a → InputFits s →
    exec (.r485chk 0x10#8 reg val h) s = .next { s with refusedMark := some .writeMultiResponse } ∧
    (fn ∉ [0x03#8, 0x06#8, 0x10#8] → exec (.r485chk fn reg val h) s =
      .next { s with response := some { status := .encode, reason := .badFunction } })

/-- 41_rs485.md R160: R485POS completes on every input: the position of a whole position frame, big-endian and without a bound, or INVALID with the sentinel; never a silently wrong position. -/
def Obligations.R485posGivesThePositionOrTheSentinel : Prop :=
  ∀ (s : State) (h : Byte) (sl : Slot) (a : Byte), Configured s h sl a → InputFits s →
    (∀ (p : Position) (extra : List Byte), s.inPort = positionFrame a p ++ extra →
      exec (.r485pos h) s = .next { s with
        response := some { status := .ok, reason := .none, pos := some p } }) ∧
    ((∀ (p : Position) (extra : List Byte), s.inPort ≠ positionFrame a p ++ extra) →
      ∃ q, q ≠ .none ∧ exec (.r485pos h) s = .next { s with
        response := some { status := .invalid, reason := q, pos := some 0xFFFFFFFF#32 } })

/-- 41_rs485.md R160: a valid READ response whose byte count is not 4 is rejected with BYTE_COUNT. -/
def Obligations.R485posRejectsOtherByteCounts : Prop :=
  ∀ (s : State) (h : Byte) (sl : Slot) (a : Byte) (data extra : List Byte),
    Configured s h sl a → InputFits s → data.length ≤ 255 → data.length ≠ 4 →
    s.inPort = rs485ReadResponse a data ++ extra →
    exec (.r485pos h) s = .next { s with
        response := some { status := .invalid, reason := .byteCount, pos := some 0xFFFFFFFF#32 } }

/-- 95_test_vectors.md W7 with 40_crc.md R135: every single-bit flip of every position response is rejected with the sentinel, and of every write acknowledgement with INVALID. -/
def Obligations.Rs485DetectsEverySingleBitFlip : Prop :=
  (∀ (s : State) (h : Byte) (sl : Slot) (a : Byte) (p : Position) (i k : Nat),
    Configured s h sl a → InputFits s → i < 9 → k < 8 → s.inPort = flipBit (positionFrame a p) i k →
    ∃ q, q ≠ .none ∧ exec (.r485pos h) s = .next { s with
        response := some { status := .invalid, reason := q, pos := some 0xFFFFFFFF#32 } }) ∧
  (∀ (s : State) (h : Byte) (sl : Slot) (a : Byte) (reg val : Half) (i k : Nat),
    Configured s h sl a → InputFits s → i < 8 → k < 8 →
    s.inPort = flipBit (rs485Request a 0x06#8 reg val) i k →
    ∃ q, q ≠ .none ∧ exec (.r485chk 0x06#8 reg val h) s = .next { s with
        response := some { status := .invalid, reason := q } })

/-! ## RS485 transactions -/

/-- 41_rs485.md R161 with 43_config.md R221: the write round trip of R485WR and its six spellings, for every pair of ok answers, scripted or free: it transmits the request, receives 8 bytes, and succeeds exactly on the echo. -/
def Obligations.RegisterWriteSucceedsExactlyOnTheEcho : Prop :=
  ∀ (i : Instr) (reg val : Half) (h : Byte) (s : State) (sl : Slot) (a : Byte) (d d' : List Byte),
    registerWrite? i = some (reg, val, h) → Configured s h sl a → sl.binding.kind = .rs485 →
    sl.busy = false → answerAt s 0 = .ok d → answerAt s 1 = .ok d' →
    let f := rs485Request a 0x06#8 reg val
    let data := exactBytes (s.draws + 1) 8 d'
    ∃ q, exec i s = .next { s with
      answers := s.answers.drop 2, draws := s.draws + 2
      calls := s.calls ++ [⟨sl.binding.transport, .transmit f s.params.tTx⟩,
        ⟨sl.binding.transport, .receive 8 s.params.tRx⟩]
      response := some { status := if data = f then .ok else .invalid, reason := q,
                         olen := some 8#4, out := some (outPort f) } } ∧
      (q = .none ↔ data = f)

/-- 41_rs485.md R161: a transmit error is TRANSPORT/TX_FAIL with the transport's own status and no receive; a receive error is TRANSPORT/RX_FAIL; the frame built is reported. For every error answer, scripted or free. -/
def Obligations.RegisterWriteReportsTransportErrors : Prop :=
  ∀ (i : Instr) (reg val : Half) (h : Byte) (s : State) (sl : Slot) (a x : Byte) (d : List Byte),
    registerWrite? i = some (reg, val, h) → Configured s h sl a → sl.binding.kind = .rs485 →
    sl.busy = false →
    let f := rs485Request a 0x06#8 reg val
    let sent : HostCall := ⟨sl.binding.transport, .transmit f s.params.tTx⟩
    (answerAt s 0 = .error x → exec i s = .next { s with
      answers := s.answers.drop 1, draws := s.draws + 1, calls := s.calls ++ [sent]
      response := some { status := .transport, reason := .txFail, xstat := some x,
                         olen := some 8#4, out := some (outPort f) } }) ∧
    (answerAt s 0 = .ok d → answerAt s 1 = .error x → exec i s = .next { s with
      answers := s.answers.drop 2, draws := s.draws + 2
      calls := s.calls ++ [sent, ⟨sl.binding.transport, .receive 8 s.params.tRx⟩]
      response := some { status := .transport, reason := .rxFail, xstat := some x,
                         olen := some 8#4, out := some (outPort f) } })

/-- 41_rs485.md R162: the blocking position read, for every pair of ok answers, scripted or free: register 0x0000, count 2, 9 bytes received, the position of a whole frame or INVALID with the sentinel. -/
def Obligations.R485rdposReadsThePosition : Prop :=
  ∀ (h : Byte) (s : State) (sl : Slot) (a : Byte) (d d' : List Byte),
    Configured s h sl a → sl.binding.kind = .rs485 → sl.busy = false →
    answerAt s 0 = .ok d → answerAt s 1 = .ok d' →
    let f := rs485Request a 0x03#8 0x0000#16 0x0002#16
    let data := exactBytes (s.draws + 1) 9 d'
    let calls := s.calls ++ [⟨sl.binding.transport, .transmit f s.params.tTx⟩,
      ⟨sl.binding.transport, .receive 9 s.params.tRx⟩]
    (∀ p, data = positionFrame a p → exec (.r485rdpos h) s = .next { s with
      answers := s.answers.drop 2, draws := s.draws + 2, calls := calls
      response := some { status := .ok, reason := .none, pos := some p,
                         olen := some 8#4, out := some (outPort f) } }) ∧
    ((∀ p, data ≠ positionFrame a p) → ∃ q, q ≠ .none ∧ exec (.r485rdpos h) s = .next { s with
      answers := s.answers.drop 2, draws := s.draws + 2, calls := calls
      response := some { status := .invalid, reason := q, pos := some 0xFFFFFFFF#32,
                         olen := some 8#4, out := some (outPort f) } })

/-- 41_rs485.md R162: every transport failure of the blocking read also sets POS to the sentinel. For every error answer, scripted or free. -/
def Obligations.R485rdposReportsTransportErrors : Prop :=
  ∀ (h : Byte) (s : State) (sl : Slot) (a x : Byte) (d : List Byte),
    Configured s h sl a → sl.binding.kind = .rs485 → sl.busy = false →
    let f := rs485Request a 0x03#8 0x0000#16 0x0002#16
    let sent : HostCall := ⟨sl.binding.transport, .transmit f s.params.tTx⟩
    (answerAt s 0 = .error x → exec (.r485rdpos h) s = .next { s with
      answers := s.answers.drop 1, draws := s.draws + 1, calls := s.calls ++ [sent]
      response := some { status := .transport, reason := .txFail, xstat := some x,
                         pos := some 0xFFFFFFFF#32, olen := some 8#4, out := some (outPort f) } }) ∧
    (answerAt s 0 = .ok d → answerAt s 1 = .error x → exec (.r485rdpos h) s = .next { s with
      answers := s.answers.drop 2, draws := s.draws + 2
      calls := s.calls ++ [sent, ⟨sl.binding.transport, .receive 9 s.params.tRx⟩]
      response := some { status := .transport, reason := .rxFail, xstat := some x,
                         pos := some 0xFFFFFFFF#32, olen := some 8#4, out := some (outPort f) } })

/-- 41_rs485.md R163: the asynchronous read, for every answer, scripted or free: BUSY[h] becomes 1 when transmitAsync answers ok, and is unchanged on an error; POS is ABSENT. -/
def Obligations.R485rdposaSetsBusy : Prop :=
  ∀ (h : Byte) (s : State) (sl : Slot) (a x : Byte) (d : List Byte),
    Configured s h sl a → sl.binding.kind = .rs485 → sl.busy = false →
    let f := rs485Request a 0x03#8 0x0000#16 0x0002#16
    let calls := s.calls ++ [⟨sl.binding.transport, .transmitAsync f⟩]
    (answerAt s 0 = .ok d → exec (.r485rdposa h) s = .next { s with
      slots := s.slots.set h.toNat { sl with busy := true }
      answers := s.answers.drop 1, draws := s.draws + 1, calls := calls
      response := some { status := .ok, reason := .none, olen := some 8#4, out := some (outPort f) } }) ∧
    (answerAt s 0 = .error x → exec (.r485rdposa h) s = .next { s with
      answers := s.answers.drop 1, draws := s.draws + 1, calls := calls
      response := some { status := .transport, reason := .txFail, xstat := some x,
                         olen := some 8#4, out := some (outPort f) } })

/-- 41_rs485.md R164: a delivery clears BUSY[h] whatever it was and whatever the bytes are, and reports the position of a whole frame or INVALID with the sentinel. -/
def Obligations.R485rxcbClearsBusyAndDecodes : Prop :=
  ∀ (h : Byte) (s : State) (sl : Slot) (a : Byte),
    Configured s h sl a → sl.binding.kind = .rs485 → s.agent = .host → InputFits s →
    (∀ (p : Position) (extra : List Byte), s.inPort = positionFrame a p ++ extra →
      exec (.r485rxcb h) s = .next { s with
        slots := s.slots.set h.toNat { sl with busy := false }
        response := some { status := .ok, reason := .none, pos := some p } }) ∧
    ((∀ (p : Position) (extra : List Byte), s.inPort ≠ positionFrame a p ++ extra) →
      ∃ q, q ≠ .none ∧ exec (.r485rxcb h) s = .next { s with
        slots := s.slots.set h.toNat { sl with busy := false }
        response := some { status := .invalid, reason := q, pos := some 0xFFFFFFFF#32 } })

/-- 70_reset_and_hazards.md R276, 20_memory.md R77: an accepted asynchronous read leaves the handle busy; every step that is neither a reset nor the host's R485RXCB on the handle leaves the busy handle as it is, ADDR[h] included; and while it is busy every RS485 transaction and SETADDR on it raises F_BUSY. -/
def Obligations.AsyncReadHoldsTheHandle : Prop :=
  (∀ (h : Byte) (s : State) (sl : Slot) (a : Byte) (d : List Byte),
    Configured s h sl a → sl.binding.kind = .rs485 → sl.busy = false → answerAt s 0 = .ok d →
    ∃ t, exec (.r485rdposa h) s = .next t ∧ slotAt t h = some { sl with busy := true }) ∧
  (∀ (h : Byte) (s t : State) (sl : Slot), slotAt s h = some sl → sl.busy = true →
    (∀ rest, s.pending ≠ .reset :: rest) →
    (∀ r rest, s.pending = .op r :: rest → r.agent = .host → decode r.word ≠ .ok (.r485rxcb h)) →
    step s = .next t → slotAt t h = some sl) ∧
  ∀ (h : Byte) (s : State) (sl : Slot) (i : Instr), slotAt s h = some sl → sl.busy = true →
    sl.binding.kind = .rs485 → i.handle? = some h → needsIdle i = true →
    exec i s = .next { s with faultMark := some .busy }

/-- 70_reset_and_hazards.md R271: a delivery for a request from before a reset raises F_ADDR_UNSET while ADDR[h] is UNSET. -/
def Obligations.StaleDeliveryAfterResetFaults : Prop :=
  ∀ (s : State) (r : Request) (rest : List Event) (h : Byte) (sl : Slot),
    s.pending = .reset :: .op r :: rest → decode r.word = .ok (.r485rxcb h) → r.agent = .host →
    slotAt s h = some sl → sl.binding.kind = .rs485 → r.input.length ≤ s.params.inCap →
    ∃ t u, step s = .next t ∧ step t = .next u ∧ u.faultMark = some .addrUnset ∧
      u.slots = t.slots ∧ u.response = none

/-! ## CAN -/

/-- 30_encoding.md R103, R105 and R107 with 42_can.md R190: the request frame byte by byte for lengths 3, 4 and 5 and the six commands, its padding and its label. -/
def Obligations.CanencBuildsTheRequestFrame : Prop :=
  ∀ (s : State) (h : Byte) (sl : Slot) (a cmd len : Byte) (sel : Half),
    Configured s h sl a → cmd.toNat ≤ 5 → len ∈ [3#8, 4#8, 5#8] →
    exec (.canenc cmd len sel h) s = .next { s with
        response := some { status := .ok, reason := .none, olen := some (len.setWidth 4)
                           out := some #v[len, a,
                           [0x01#8, s.params.canCodes.setId, s.params.canCodes.setBaudrate, s.params.canCodes.setMode,
                           s.params.canCodes.setReturnTime, s.params.canCodes.setZero].getD cmd.toNat 0#8,
                           if len = 3#8 then 0#8 else sel.extractLsb' 0 8,
                           if len = 5#8 then sel.extractLsb' 8 8 else 0#8, 0#8, 0#8, 0#8]
                           canId := some (0#3 ++ a), ide := some 0#1, rtr := some 0#1 } }

/-- 42_can.md R192: a selector above 5 is BAD_COMMAND, also when the length is wrong too; else a length outside 3, 4, 5 is BAD_LENGTH; CANENC and CANSEND produce no frame, and CANSEND makes no host call. -/
def Obligations.CanContractViolationsAreRejected : Prop :=
  ∀ (s : State) (h : Byte) (sl : Slot) (a cmd len : Byte) (sel : Half),
    Configured s h sl a → 5 < cmd.toNat ∨ len ∉ [3#8, 4#8, 5#8] →
    let rejected : State := { s with
      response := some { status := .encode, reason := if 5 < cmd.toNat then .badCommand else .badLength,
                         olen := some 0#4, out := some #v[0#8, 0#8, 0#8, 0#8, 0#8, 0#8, 0#8, 0#8] } }
    exec (.canenc cmd len sel h) s = .next rejected ∧
    (sl.binding.kind = .can → exec (.cansend cmd len sel h) s = .next rejected)

/-- 30_encoding.md R107: with parameters the spec admits, the six wire codes are distinct, and a selector names a command just when it is at most 5. -/
def Obligations.CanCommandCodesAreDistinct : Prop :=
  (∀ (k : CanCodes) (c c' : Command), k.Distinct = true → cmdCode k c = cmdCode k c' → c = c') ∧
  (∀ k : CanCodes, cmdCode k .getValue = 0x01#8) ∧
  (∀ b : Byte, (commandOfSelector b).isSome = true ↔ b.toNat ≤ 5) ∧
  (∀ c : Command, commandOfSelector (selectorOf c) = some c)

/-- 42_can.md R194, R197: CANDEC completes on every input: the little-endian position of a report, without a range check, or INVALID with the sentinel. -/
def Obligations.CandecGivesThePositionOrTheSentinel : Prop :=
  ∀ (s : State) (h : Byte) (sl : Slot) (a : Byte), Configured s h sl a → InputFits s →
    (∀ (p : Position) (extra : List Byte), s.inPort = positionReport a p ++ extra →
      exec (.candec h) s = .next { s with
        response := some { status := .ok, reason := .none, pos := some p } }) ∧
    ((∀ (p : Position) (extra : List Byte), s.inPort ≠ positionReport a p ++ extra) →
      ∃ q, q ≠ .none ∧ exec (.candec h) s = .next { s with
        response := some { status := .invalid, reason := q, pos := some 0xFFFFFFFF#32 } })

/-- 42_can.md R194: the checks run in the order short, address, length byte, command; and the value of the position in the payload bytes. -/
def Obligations.CandecReportsTheFirstFailure : Prop :=
  ∀ (s : State) (h : Byte) (sl : Slot) (a : Byte), Configured s h sl a → InputFits s →
    let f := s.inPort
    let inv (q : Reason) : Response := { status := .invalid, reason := q, pos := some 0xFFFFFFFF#32 }
    ∃ p : Position, p.toNat = (f.getD 3 0#8).toNat + 2 ^ 8 * (f.getD 4 0#8).toNat +
        2 ^ 16 * (f.getD 5 0#8).toNat + 2 ^ 24 * (f.getD 6 0#8).toNat ∧
      exec (.candec h) s = .next { s with
        response := some (
        if f.length < 7 then inv .shortFrame
        else if f.getD 1 0#8 ≠ a then inv .addrMismatch
        else if f.getD 0 0#8 ≠ 0x07#8 then inv .reportLength
        else if f.getD 2 0#8 ≠ 0x01#8 then inv .reportCommand
        else { status := .ok, reason := .none, pos := some p }) }

/-- 42_can.md R198: a single-bit flip in bytes 0 to 2 of a report is rejected; one in bytes 3 to 6 is accepted with a different position. -/
def Obligations.CanReportFlipsInHeaderAndPayload : Prop :=
  ∀ (s : State) (h : Byte) (sl : Slot) (a : Byte) (p : Position) (i k : Nat),
    Configured s h sl a → InputFits s → k < 8 → s.inPort = flipBit (positionReport a p) i k →
    (i < 3 → ∃ q, q ≠ .none ∧ exec (.candec h) s = .next { s with
        response := some { status := .invalid, reason := q, pos := some 0xFFFFFFFF#32 } }) ∧
    (3 ≤ i → i < 7 → ∃ p', p' ≠ p ∧ exec (.candec h) s = .next { s with
        response := some { status := .ok, reason := .none, pos := some p' } })

/-- 42_can.md R196: a CAN delivery decodes as CANDEC does, and changes nothing but the record. -/
def Obligations.CanrxcbDecodesTheDelivery : Prop :=
  ∀ (s : State) (h : Byte) (sl : Slot) (a : Byte),
    Configured s h sl a → sl.binding.kind = .can → s.agent = .host → InputFits s →
    exec (.canrxcb h) s = exec (.candec h) s ∧
    (∀ (p : Position) (extra : List Byte), s.inPort = positionReport a p ++ extra →
      exec (.canrxcb h) s = .next { s with
        response := some { status := .ok, reason := .none, pos := some p } })

/-- 42_can.md R195, R193 with 43_config.md R222: CANSEND and its six spellings hand the frame to canTransmit with DLC = len, identifier = address, IDE = RTR = 0; ok completes, an error is TRANSPORT/TX_FAIL. For every answer, scripted or free. That CANID, IDE and RTR stand in the record of an error is log 16. -/
def Obligations.CansendTransmitsTheFrame : Prop :=
  ∀ (i : Instr) (cmd len : Byte) (sel : Half) (h : Byte) (s : State) (sl : Slot) (a x : Byte)
    (d : List Byte),
    canRequest? i = some (cmd, len, sel, h) → Configured s h sl a → sl.binding.kind = .can →
    cmd.toNat ≤ 5 → len ∈ [3#8, 4#8, 5#8] →
    let code := [0x01#8, s.params.canCodes.setId, s.params.canCodes.setBaudrate,
      s.params.canCodes.setMode, s.params.canCodes.setReturnTime,
      s.params.canCodes.setZero].getD cmd.toNat 0#8
    let f := [len, a, code, sel.extractLsb' 0 8, sel.extractLsb' 8 8].take len.toNat
    let calls := s.calls ++ [⟨sl.binding.transport, .canTransmit f len (0#3 ++ a) 0#1 0#1⟩]
    (answerAt s 0 = .ok d → exec i s = .next { s with
      answers := s.answers.drop 1, draws := s.draws + 1, calls := calls
      response := some { status := .ok, reason := .none, olen := some (len.setWidth 4),
                         out := some (outPort f), canId := some (0#3 ++ a), ide := some 0#1, rtr := some 0#1 } }) ∧
    (answerAt s 0 = .error x → exec i s = .next { s with
      answers := s.answers.drop 1, draws := s.draws + 1, calls := calls
      response := some { status := .transport, reason := .txFail, xstat := some x,
                         olen := some (len.setWidth 4), out := some (outPort f),
                         canId := some (0#3 ++ a), ide := some 0#1, rtr := some 0#1 } })

/-! ## The handle address -/

/-- 43_config.md R223: SETADDR on an idle handle writes a nonzero address, set or UNSET before and of either kind; zero raises F_ADDR_ZERO and ADDR[h] keeps its value. -/
def Obligations.SetaddrWritesTheAddress : Prop :=
  ∀ (s : State) (h a : Byte) (sl : Slot), slotAt s h = some sl → sl.busy = false →
    (a ≠ 0x00#8 → exec (.setaddr a h) s = .next { s with
      slots := s.slots.set h.toNat { sl with addr := some a }
      response := some { status := .ok, reason := .none } }) ∧
    (a = 0x00#8 → exec (.setaddr a h) s = .next { s with faultMark := some .addrZero })

/-! ## What operations leave unchanged -/

/-- Frame of CRC16, R485ENC, R485CHK, R485POS, CANENC, CANDEC and CANRXCB: only the response record changes, or one mark. -/
def Obligations.CodecOperationsChangeOnlyTheOutcome : Prop :=
  ∀ (i : Instr) (s t : State), (isCodec i = true ∨ ∃ h, i = .canrxcb h) → exec i s = .next t →
    (∃ r, t = { s with response := some r }) ∨ (∃ f, t = { s with faultMark := some f }) ∨
      ∃ q, t = { s with refusedMark := some q }

/-- Frame of R485WR, R485RDPOS, CANSEND and their spellings: only the response record, and the host's lists by at most two calls, one draw each, or only the FAULT mark. ADDR and BUSY of every handle are unchanged, even by an address-change command. -/
def Obligations.TransactionsKeepTheHandles : Prop :=
  ∀ (i : Instr) (s t : State),
    ((registerWrite? i).isSome = true ∨ (canRequest? i).isSome = true ∨ ∃ h, i = .r485rdpos h) →
    exec i s = .next t →
    (∃ f, t = { s with faultMark := some f }) ∨
    ∃ (r : Response) (made : List HostCall), made.length ≤ 2 ∧
      t = { s with response := some r, calls := s.calls ++ made, draws := s.draws + made.length,
                   answers := s.answers.drop made.length }

/-- Frame of R485RDPOSA, R485RXCB and SETADDR: the first two change no slot but BUSY[h], SETADDR none but ADDR[h]; only R485RDPOSA calls the host, once; a stop changes one mark only. -/
def Obligations.HandleWritersChangeOnlyTheirField : Prop :=
  ∀ (h a : Byte) (s t : State),
    (exec (.r485rdposa h) s = .next t →
      (∃ f, t = { s with faultMark := some f }) ∨
      ∃ (r : Response) (c : HostCall) (l : List Slot),
        (l = s.slots ∨ l = s.slots.modify h.toNat fun sl => { sl with busy := true }) ∧
        t = { s with slots := l, response := some r, calls := s.calls ++ [c], draws := s.draws + 1,
                     answers := s.answers.drop 1 }) ∧
    (exec (.r485rxcb h) s = .next t →
      (∃ f, t = { s with faultMark := some f }) ∨ (∃ q, t = { s with refusedMark := some q }) ∨
      ∃ r, t = { s with slots := s.slots.modify h.toNat fun sl => { sl with busy := false },
                        response := some r }) ∧
    (exec (.setaddr a h) s = .next t →
      (∃ f, t = { s with faultMark := some f }) ∨
      ∃ r, t = { s with slots := s.slots.modify h.toNat fun sl => { sl with addr := some a },
                        response := some r })

/-! ## Rules of the whole block -/

/-- 60_exceptions.md R240, 00_scope.md R13: no failure is fatal: every operation, every word and every event answers a next state. -/
def Obligations.EveryStepAnswersANextState : Prop :=
  (∀ (i : Instr) (s : State), ∃ t, exec i s = .next t) ∧ ∀ s : State, ∃ t, step s = .next t

/-- 10_state.md R42: neither mark is cleared by any later operation or by reset. -/
def Obligations.MarksAreNeverCleared : Prop :=
  ∀ s t : State, step s = .next t →
    (s.faultMark.isSome = true → t.faultMark.isSome = true) ∧
    (s.refusedMark.isSome = true → t.refusedMark.isSome = true)

/-- 60_exceptions.md R248, R250, R252: the state after a fault or refusal is the state before, except for the one mark. -/
def Obligations.FaultOrRefusalChangesOnlyTheMark : Prop :=
  ∀ (i : Instr) (s t : State), s.Final → exec i s = .next t → ¬ t.Final →
    (∃ f, t = { s with faultMark := some f }) ∨ ∃ q, t = { s with refusedMark := some q }

/-- 10_state.md R34: ADDR[h] is written by SETADDR on h and by reset only. -/
def Obligations.OnlySetaddrAndResetWriteAddr : Prop :=
  ∀ (s t : State) (h : Byte), step s = .next t →
    (slotAt t h).map Slot.addr = (slotAt s h).map Slot.addr ∨
    (∃ rest, s.pending = .reset :: rest) ∨
    ∃ r rest a, s.pending = .op r :: rest ∧ decode r.word = .ok (.setaddr a h) ∧ a ≠ 0x00#8

/-- 10_state.md R36: BUSY[h] is set by R485RDPOSA on h only, and cleared by R485RXCB on h and by reset only. -/
def Obligations.OnlyAsyncOperationsAndResetWriteBusy : Prop :=
  ∀ (s t : State) (h : Byte) (x y : Slot), step s = .next t → slotAt s h = some x → slotAt t h = some y →
    (x.busy = false → y.busy = true →
      ∃ r rest, s.pending = .op r :: rest ∧ decode r.word = .ok (.r485rdposa h)) ∧
    (x.busy = true → y.busy = false → (∃ rest, s.pending = .reset :: rest) ∨
      ∃ r rest, s.pending = .op r :: rest ∧ decode r.word = .ok (.r485rxcb h) ∧ r.agent = .host)

/-- 10_state.md R35, 00_scope.md R8: no step writes NH, KIND, TRANSPORT or an open parameter. -/
def Obligations.ConfigurationIsNeverWritten : Prop :=
  ∀ s t : State, step s = .next t →
    t.params = s.params ∧ t.slots.map Slot.binding = s.slots.map Slot.binding

/-- The invariant of the block (Safety.lean) is kept by every step. -/
def Obligations.EveryStepKeepsTheInvariant : Prop :=
  ∀ s t : State, s.Inv → step s = .next t → t.Inv

/-- The invariant of the block holds at reset. -/
def Obligations.ResetMeetsTheInvariant : Prop := State.reset.Inv

/-- 60_exceptions.md R255: different handles share no state: an operation on h neither reads nor writes the slot of another handle, and CRC16 reads and writes none. -/
def Obligations.HandlesShareNoState : Prop :=
  ∀ (i : Instr) (k : Nat) (sl : Slot) (s : State), (∀ h, i.handle? = some h → h.toNat ≠ k) →
    ∃ t, exec i s = .next t ∧ t.slots[k]? = s.slots[k]? ∧
      exec i { s with slots := s.slots.set k sl } = .next { t with slots := t.slots.set k sl }

/-- 10_state.md R35, R36: a pure codec operation on h reads neither KIND[h], TRANSPORT[h] nor BUSY[h]. -/
def Obligations.CodecOperationsIgnoreBindingAndBusy : Prop :=
  ∀ (i : Instr) (h : Byte) (x : Slot) (b : Binding) (z : Bool) (s : State),
    isCodec i = true → slotAt s h = some x →
    ∃ t, exec i s = .next t ∧
      exec i { s with slots := s.slots.set h.toNat { x with binding := b, busy := z } } =
        .next { t with slots := t.slots.set h.toNat { x with binding := b, busy := z } }

/-- 30_encoding.md R94: an IN byte sequence given to an operation that takes none is ignored. -/
def Obligations.InputOfOtherOperationsIsIgnored : Prop :=
  ∀ (i : Instr) (f : List Byte) (s : State), takesInput i = false →
    ∃ t, exec i s = .next t ∧ exec i { s with inPort := f } = .next { t with inPort := f }

/-- 60_exceptions.md R241, R243 and R242: the numeric codes. -/
def Obligations.StatusAndReasonCodes : Prop :=
  [Status.ok, .transport, .invalid, .encode].map statusCode = [0x00#8, 0x01#8, 0x02#8, 0x03#8] ∧
  [Reason.none, .addrMismatch, .funcMismatch, .shortFrame, .crcMismatch, .echoMismatch, .byteCount,
    .reportLength, .reportCommand, .badFunction, .badLength, .badCommand, .txFail, .rxFail].map reasonCode =
    [0x00#8, 0x10#8, 0x11#8, 0x12#8, 0x13#8, 0x14#8, 0x15#8, 0x16#8, 0x17#8, 0x20#8, 0x21#8, 0x22#8,
      0x30#8, 0x31#8] ∧
  (∀ a b : Reason, reasonCode a = reasonCode b → a = b) ∧
  ∀ a b : Status, statusCode a = statusCode b → a = b
end

