-- ==== Sys2Proof/Laws/Decode.lean ====
section
/-! SUPPORT. The fields and the word of an operation determine each other (30_encoding.md R91). -/

namespace Sys2Proof

/-- No field of a word is dropped. -/
theorem fieldsOfWord_wordOfFields (f : Fields) : fieldsOfWord (wordOfFields f) = f := by
  obtain ⟨op, a, b, c, d, h⟩ := f
  simp only [fieldsOfWord, wordOfFields, Fields.mk.injEq]
  refine ⟨?_, ?_, ?_, ?_, ?_, ?_⟩ <;> ext i hi <;> simp <;> grind

/-- The fields of a word hold all of it. -/
theorem wordOfFields_fieldsOfWord (w : OpWord) : wordOfFields (fieldsOfWord w) = w := by
  ext i hi
  simp only [fieldsOfWord, wordOfFields]
  simp
  grind

/-- Every operation is in the operation map (30_encoding.md R93). -/
@[simp] theorem opcodeOfCode_opcodeCode (o : Opcode) : opcodeOfCode (opcodeCode o) = some o := by
  cases o <;> decide

/-- An operation is found by its own code only (30_encoding.md R94: every legal word names exactly one operation). -/
theorem opcodeCode_of_opcodeOfCode {b : Byte} {o : Opcode} (h : opcodeOfCode b = some o) :
    opcodeCode o = b := by
  simpa using List.find?_some h

end Sys2Proof
end

