-- ==== Sys2Proof/Laws/State.lean ====
section
/-! SUPPORT. What each update of the state does to each field, so that no proof unfolds a record update. -/

namespace Sys2Proof.Machine

@[simp] theorem raiseFault_params (f : Fault) (s : State) : (raiseFault f s).params = s.params := rfl
@[simp] theorem raiseFault_slots (f : Fault) (s : State) : (raiseFault f s).slots = s.slots := rfl
@[simp] theorem raiseFault_response (f : Fault) (s : State) : (raiseFault f s).response = s.response := rfl
@[simp] theorem raiseFault_faultMark (f : Fault) (s : State) : (raiseFault f s).faultMark = some f := rfl
@[simp] theorem raiseFault_refusedMark (f : Fault) (s : State) : (raiseFault f s).refusedMark = s.refusedMark := rfl
@[simp] theorem raiseFault_agent (f : Fault) (s : State) : (raiseFault f s).agent = s.agent := rfl
@[simp] theorem raiseFault_inPort (f : Fault) (s : State) : (raiseFault f s).inPort = s.inPort := rfl
@[simp] theorem raiseFault_pending (f : Fault) (s : State) : (raiseFault f s).pending = s.pending := rfl
@[simp] theorem raiseFault_answers (f : Fault) (s : State) : (raiseFault f s).answers = s.answers := rfl
@[simp] theorem raiseFault_draws (f : Fault) (s : State) : (raiseFault f s).draws = s.draws := rfl
@[simp] theorem raiseFault_calls (f : Fault) (s : State) : (raiseFault f s).calls = s.calls := rfl

@[simp] theorem refuseWith_params (q : Refusal) (s : State) : (refuseWith q s).params = s.params := rfl
@[simp] theorem refuseWith_slots (q : Refusal) (s : State) : (refuseWith q s).slots = s.slots := rfl
@[simp] theorem refuseWith_response (q : Refusal) (s : State) : (refuseWith q s).response = s.response := rfl
@[simp] theorem refuseWith_faultMark (q : Refusal) (s : State) : (refuseWith q s).faultMark = s.faultMark := rfl
@[simp] theorem refuseWith_refusedMark (q : Refusal) (s : State) : (refuseWith q s).refusedMark = some q := rfl
@[simp] theorem refuseWith_agent (q : Refusal) (s : State) : (refuseWith q s).agent = s.agent := rfl
@[simp] theorem refuseWith_inPort (q : Refusal) (s : State) : (refuseWith q s).inPort = s.inPort := rfl
@[simp] theorem refuseWith_pending (q : Refusal) (s : State) : (refuseWith q s).pending = s.pending := rfl
@[simp] theorem refuseWith_answers (q : Refusal) (s : State) : (refuseWith q s).answers = s.answers := rfl
@[simp] theorem refuseWith_draws (q : Refusal) (s : State) : (refuseWith q s).draws = s.draws := rfl
@[simp] theorem refuseWith_calls (q : Refusal) (s : State) : (refuseWith q s).calls = s.calls := rfl

@[simp] theorem respond_params (r : Response) (s : State) : (respond r s).params = s.params := rfl
@[simp] theorem respond_slots (r : Response) (s : State) : (respond r s).slots = s.slots := rfl
@[simp] theorem respond_response (r : Response) (s : State) : (respond r s).response = some r := rfl
@[simp] theorem respond_faultMark (r : Response) (s : State) : (respond r s).faultMark = s.faultMark := rfl
@[simp] theorem respond_refusedMark (r : Response) (s : State) : (respond r s).refusedMark = s.refusedMark := rfl
@[simp] theorem respond_agent (r : Response) (s : State) : (respond r s).agent = s.agent := rfl
@[simp] theorem respond_inPort (r : Response) (s : State) : (respond r s).inPort = s.inPort := rfl
@[simp] theorem respond_pending (r : Response) (s : State) : (respond r s).pending = s.pending := rfl
@[simp] theorem respond_answers (r : Response) (s : State) : (respond r s).answers = s.answers := rfl
@[simp] theorem respond_draws (r : Response) (s : State) : (respond r s).draws = s.draws := rfl
@[simp] theorem respond_calls (r : Response) (s : State) : (respond r s).calls = s.calls := rfl

@[simp] theorem setAddrOf_params (h a : Byte) (s : State) : (setAddrOf h a s).params = s.params := rfl
@[simp] theorem setAddrOf_response (h a : Byte) (s : State) : (setAddrOf h a s).response = s.response := rfl
@[simp] theorem setAddrOf_faultMark (h a : Byte) (s : State) : (setAddrOf h a s).faultMark = s.faultMark := rfl
@[simp] theorem setAddrOf_refusedMark (h a : Byte) (s : State) : (setAddrOf h a s).refusedMark = s.refusedMark := rfl
@[simp] theorem setAddrOf_agent (h a : Byte) (s : State) : (setAddrOf h a s).agent = s.agent := rfl
@[simp] theorem setAddrOf_inPort (h a : Byte) (s : State) : (setAddrOf h a s).inPort = s.inPort := rfl
@[simp] theorem setAddrOf_pending (h a : Byte) (s : State) : (setAddrOf h a s).pending = s.pending := rfl
@[simp] theorem setAddrOf_answers (h a : Byte) (s : State) : (setAddrOf h a s).answers = s.answers := rfl
@[simp] theorem setAddrOf_draws (h a : Byte) (s : State) : (setAddrOf h a s).draws = s.draws := rfl
@[simp] theorem setAddrOf_calls (h a : Byte) (s : State) : (setAddrOf h a s).calls = s.calls := rfl

@[simp] theorem setBusyOf_params (h : Byte) (b : Bool) (s : State) : (setBusyOf h b s).params = s.params := rfl
@[simp] theorem setBusyOf_response (h : Byte) (b : Bool) (s : State) : (setBusyOf h b s).response = s.response := rfl
@[simp] theorem setBusyOf_faultMark (h : Byte) (b : Bool) (s : State) : (setBusyOf h b s).faultMark = s.faultMark := rfl
@[simp] theorem setBusyOf_refusedMark (h : Byte) (b : Bool) (s : State) : (setBusyOf h b s).refusedMark = s.refusedMark := rfl
@[simp] theorem setBusyOf_agent (h : Byte) (b : Bool) (s : State) : (setBusyOf h b s).agent = s.agent := rfl
@[simp] theorem setBusyOf_inPort (h : Byte) (b : Bool) (s : State) : (setBusyOf h b s).inPort = s.inPort := rfl
@[simp] theorem setBusyOf_pending (h : Byte) (b : Bool) (s : State) : (setBusyOf h b s).pending = s.pending := rfl
@[simp] theorem setBusyOf_answers (h : Byte) (b : Bool) (s : State) : (setBusyOf h b s).answers = s.answers := rfl
@[simp] theorem setBusyOf_draws (h : Byte) (b : Bool) (s : State) : (setBusyOf h b s).draws = s.draws := rfl
@[simp] theorem setBusyOf_calls (h : Byte) (b : Bool) (s : State) : (setBusyOf h b s).calls = s.calls := rfl

@[simp] theorem resetBlock_params (s : State) : (resetBlock s).params = s.params := rfl
@[simp] theorem resetBlock_slots (s : State) : (resetBlock s).slots = s.slots.map fun sl => Slot.fresh sl.binding := rfl
@[simp] theorem resetBlock_response (s : State) : (resetBlock s).response = none := rfl
@[simp] theorem resetBlock_faultMark (s : State) : (resetBlock s).faultMark = s.faultMark := rfl
@[simp] theorem resetBlock_refusedMark (s : State) : (resetBlock s).refusedMark = s.refusedMark := rfl
@[simp] theorem resetBlock_agent (s : State) : (resetBlock s).agent = s.agent := rfl
@[simp] theorem resetBlock_inPort (s : State) : (resetBlock s).inPort = s.inPort := rfl
@[simp] theorem resetBlock_pending (s : State) : (resetBlock s).pending = s.pending := rfl
@[simp] theorem resetBlock_answers (s : State) : (resetBlock s).answers = s.answers := rfl
@[simp] theorem resetBlock_draws (s : State) : (resetBlock s).draws = s.draws := rfl
@[simp] theorem resetBlock_calls (s : State) : (resetBlock s).calls = s.calls := rfl

@[simp] theorem issue_params (r : Request) (s : State) : (issue r s).params = s.params := rfl
@[simp] theorem issue_slots (r : Request) (s : State) : (issue r s).slots = s.slots := rfl
@[simp] theorem issue_response (r : Request) (s : State) : (issue r s).response = s.response := rfl
@[simp] theorem issue_faultMark (r : Request) (s : State) : (issue r s).faultMark = s.faultMark := rfl
@[simp] theorem issue_refusedMark (r : Request) (s : State) : (issue r s).refusedMark = s.refusedMark := rfl
@[simp] theorem issue_agent (r : Request) (s : State) : (issue r s).agent = r.agent := rfl
@[simp] theorem issue_inPort (r : Request) (s : State) : (issue r s).inPort = r.input := rfl
@[simp] theorem issue_pending (r : Request) (s : State) : (issue r s).pending = s.pending := rfl
@[simp] theorem issue_answers (r : Request) (s : State) : (issue r s).answers = s.answers := rfl
@[simp] theorem issue_draws (r : Request) (s : State) : (issue r s).draws = s.draws := rfl
@[simp] theorem issue_calls (r : Request) (s : State) : (issue r s).calls = s.calls := rfl

@[simp] theorem retire_params (s : State) : (retire s).params = s.params := rfl
@[simp] theorem retire_slots (s : State) : (retire s).slots = s.slots := rfl
@[simp] theorem retire_response (s : State) : (retire s).response = s.response := rfl
@[simp] theorem retire_faultMark (s : State) : (retire s).faultMark = s.faultMark := rfl
@[simp] theorem retire_refusedMark (s : State) : (retire s).refusedMark = s.refusedMark := rfl
@[simp] theorem retire_agent (s : State) : (retire s).agent = Agent.client := rfl
@[simp] theorem retire_inPort (s : State) : (retire s).inPort = [] := rfl
@[simp] theorem retire_pending (s : State) : (retire s).pending = s.pending := rfl
@[simp] theorem retire_answers (s : State) : (retire s).answers = s.answers := rfl
@[simp] theorem retire_draws (s : State) : (retire s).draws = s.draws := rfl
@[simp] theorem retire_calls (s : State) : (retire s).calls = s.calls := rfl

@[simp] theorem dropEvent_params (s : State) : (dropEvent s).params = s.params := rfl
@[simp] theorem dropEvent_slots (s : State) : (dropEvent s).slots = s.slots := rfl
@[simp] theorem dropEvent_response (s : State) : (dropEvent s).response = s.response := rfl
@[simp] theorem dropEvent_faultMark (s : State) : (dropEvent s).faultMark = s.faultMark := rfl
@[simp] theorem dropEvent_refusedMark (s : State) : (dropEvent s).refusedMark = s.refusedMark := rfl
@[simp] theorem dropEvent_agent (s : State) : (dropEvent s).agent = s.agent := rfl
@[simp] theorem dropEvent_inPort (s : State) : (dropEvent s).inPort = s.inPort := rfl
@[simp] theorem dropEvent_pending (s : State) : (dropEvent s).pending = s.pending.tail := rfl
@[simp] theorem dropEvent_answers (s : State) : (dropEvent s).answers = s.answers := rfl
@[simp] theorem dropEvent_draws (s : State) : (dropEvent s).draws = s.draws := rfl
@[simp] theorem dropEvent_calls (s : State) : (dropEvent s).calls = s.calls := rfl

@[simp] theorem takeDraw_params (c : HostCall) (s : State) : (takeDraw c s).params = s.params := rfl
@[simp] theorem takeDraw_slots (c : HostCall) (s : State) : (takeDraw c s).slots = s.slots := rfl
@[simp] theorem takeDraw_response (c : HostCall) (s : State) : (takeDraw c s).response = s.response := rfl
@[simp] theorem takeDraw_faultMark (c : HostCall) (s : State) : (takeDraw c s).faultMark = s.faultMark := rfl
@[simp] theorem takeDraw_refusedMark (c : HostCall) (s : State) : (takeDraw c s).refusedMark = s.refusedMark := rfl
@[simp] theorem takeDraw_agent (c : HostCall) (s : State) : (takeDraw c s).agent = s.agent := rfl
@[simp] theorem takeDraw_inPort (c : HostCall) (s : State) : (takeDraw c s).inPort = s.inPort := rfl
@[simp] theorem takeDraw_pending (c : HostCall) (s : State) : (takeDraw c s).pending = s.pending := rfl
@[simp] theorem takeDraw_answers (c : HostCall) (s : State) : (takeDraw c s).answers = s.answers.tail := rfl
@[simp] theorem takeDraw_draws (c : HostCall) (s : State) : (takeDraw c s).draws = s.draws + 1 := rfl
@[simp] theorem takeDraw_calls (c : HostCall) (s : State) : (takeDraw c s).calls = s.calls ++ [c] := rfl

@[simp] theorem pushRequest_params (r : Request) (s : State) : (pushRequest r s).params = s.params := rfl
@[simp] theorem pushRequest_slots (r : Request) (s : State) : (pushRequest r s).slots = s.slots := rfl
@[simp] theorem pushRequest_response (r : Request) (s : State) : (pushRequest r s).response = s.response := rfl
@[simp] theorem pushRequest_faultMark (r : Request) (s : State) : (pushRequest r s).faultMark = s.faultMark := rfl
@[simp] theorem pushRequest_refusedMark (r : Request) (s : State) : (pushRequest r s).refusedMark = s.refusedMark := rfl
@[simp] theorem pushRequest_agent (r : Request) (s : State) : (pushRequest r s).agent = s.agent := rfl
@[simp] theorem pushRequest_inPort (r : Request) (s : State) : (pushRequest r s).inPort = s.inPort := rfl
@[simp] theorem pushRequest_pending (r : Request) (s : State) : (pushRequest r s).pending = .op r :: s.pending := rfl
@[simp] theorem pushRequest_answers (r : Request) (s : State) : (pushRequest r s).answers = s.answers := rfl
@[simp] theorem pushRequest_draws (r : Request) (s : State) : (pushRequest r s).draws = s.draws := rfl
@[simp] theorem pushRequest_calls (r : Request) (s : State) : (pushRequest r s).calls = s.calls := rfl

@[simp] theorem setAddrOf_slots (h a : Byte) (s : State) :
    (setAddrOf h a s).slots = s.slots.modify h.toNat fun sl => { sl with addr := some a } := rfl
@[simp] theorem setBusyOf_slots (h : Byte) (b : Bool) (s : State) :
    (setBusyOf h b s).slots = s.slots.modify h.toNat fun sl => { sl with busy := b } := rfl

@[simp] theorem stop_fault (f : Fault) (s : State) : stop (.fault f) s = raiseFault f s := rfl
@[simp] theorem stop_refuse (q : Refusal) (s : State) : stop (.refuse q) s = refuseWith q s := rfl

@[simp] theorem Slot.fresh_binding (b : Binding) : (Slot.fresh b).binding = b := rfl
@[simp] theorem Slot.fresh_addr (b : Binding) : (Slot.fresh b).addr = none := rfl
@[simp] theorem Slot.fresh_busy (b : Binding) : (Slot.fresh b).busy = false := rfl

@[simp] theorem retireAnswer_next (s : State) : retireAnswer (.next s) = .next (retire s) := rfl

end Sys2Proof.Machine
end

