-- ==== Sys2Proof/Laws/Ops.lean ====
section
/-! SUPPORT. One lemma per shared operation that says everything it can do. -/

namespace Sys2Proof.Machine

/-- Every answer is ok, or an error with a byte of XSTAT (00_scope.md R8, 93_implementation_defined.md K6). -/
theorem admittedAnswer_cases (set : List Byte) (a : HostAnswer) :
    (∃ data, admittedAnswer set a = .ok data) ∨ ∃ x ∈ set, admittedAnswer set a = .error x := by
  cases a with
  | ok data => exact .inl ⟨data, rfl⟩
  | error x =>
    by_cases h : x ∈ set
    · exact .inr ⟨x, h, by simp [admittedAnswer, h]⟩
    · cases set with
      | nil => exact .inl ⟨[], rfl⟩
      | cons y ys => exact .inr ⟨y, by simp, by simp only [admittedAnswer, h, if_false]⟩

/-- An admitted draw is answered as it is. -/
theorem admittedAnswer_error {set : List Byte} {x : Byte} (h : x ∈ set) :
    admittedAnswer set (.error x) = .error x := by simp [admittedAnswer, h]

/-- An error answer carries a byte of XSTAT. -/
theorem answerAt_error {s : State} {n : Nat} {x : Byte} (h : answerAt s n = .error x) :
    x ∈ s.params.xstat := by
  rcases admittedAnswer_cases s.params.xstat (s.answers.getD n (Config.freeAnswer (s.draws + n)))
    with ⟨data, e⟩ | ⟨y, hy, e⟩
  · exact nomatch e.symm.trans h
  · cases e.symm.trans h; exact hy

/-- The draws move up by one with each call. -/
@[simp] theorem answerAt_takeDraw (c : HostCall) (s : State) (n : Nat) :
    answerAt (takeDraw c s) n = answerAt s (n + 1) := by
  obtain ⟨p, sl, r, f, q, a, i, e, l, d, k⟩ := s
  cases l <;> simp [answerAt, takeDraw, Nat.add_right_comm, Nat.add_assoc]

/-- The state after two calls. -/
theorem takeDraw_takeDraw (c c' : HostCall) (s : State) :
    takeDraw c' (takeDraw c s) =
      { s with answers := s.answers.drop 2, draws := s.draws + 2, calls := s.calls ++ [c, c'] } := by
  obtain ⟨p, sl, r, f, q, a, i, e, l, d, k⟩ := s
  rcases l with _ | ⟨x, _ | ⟨y, l⟩⟩ <;> simp [takeDraw]

/-- A transmit primitive as one pair. -/
theorem sendOn_eq (ch : Nat) (p : HostPrimitive) (s : State) :
    sendOn ch p s = (sendStatus (answerAt s 0), takeDraw ⟨ch, p⟩ s) := rfl

/-- `receive` as one pair. -/
theorem receiveOn_eq (ch n : Nat) (s : State) :
    receiveOn ch n s = (receivedBytes s.draws n (answerAt s 0),
      takeDraw ⟨ch, .receive n s.params.tRx⟩ s) := rfl

/-- `receive` returns exactly n bytes on ok (60_exceptions.md R257). -/
@[simp] theorem exactBytes_length (k n : Nat) (data : List Byte) :
    (exactBytes k n data).length = n := by simp [exactBytes]

/-- A draw that names exactly n bytes gives them. -/
theorem exactBytes_eq {k n : Nat} {data : List Byte} (h : data.length = n) :
    exactBytes k n data = data := by
  subst h
  apply List.ext_getElem <;> simp +contextual [exactBytes]

/-- When the common checks pass (60_exceptions.md R245 steps 1 to 4). -/
theorem precheck_ok_iff {n : Needs} {h : Byte} {s : State} {sl : Slot} :
    precheck n h s = .ok sl ↔
      slotAt s h = some sl ∧ (n.hostOnly = true → s.agent = .host) ∧
      (n.input = true → s.inPort.length ≤ s.params.inCap) ∧
      (∀ k, n.kind = some k → sl.binding.kind = k) ∧ (n.idle = true → sl.busy = false) := by
  unfold precheck
  cases hs : slotAt s h with
  | none => simp
  | some x =>
    rcases n with ⟨ho, inp, kd, idl⟩
    cases kd with
    | none => by_cases h1 : ho && s.agent != .host <;> by_cases h2 : inp && decide (s.params.inCap < s.inPort.length) <;>
        by_cases h3 : idl && x.busy <;> simp_all <;> grind
    | some k => by_cases h1 : ho && s.agent != .host <;> by_cases h2 : inp && decide (s.params.inCap < s.inPort.length) <;>
        by_cases h4 : k != x.binding.kind <;> by_cases h3 : idl && x.busy <;> simp_all <;> grind

/-- The common checks with the read of ADDR[h] (60_exceptions.md R245 steps 1 to 5). -/
theorem precheckAddr_ok_iff {n : Needs} {h : Byte} {s : State} {sl : Slot} {a : Byte} :
    precheckAddr n h s = .ok (sl, a) ↔ precheck n h s = .ok sl ∧ sl.addr = some a := by
  unfold precheckAddr
  cases hp : precheck n h s with
  | error e => simp
  | ok x =>
    cases ha : x.addr with
    | none => simp only [ha]; simp; rintro rfl; simp [ha]
    | some b => simp only [ha]; simp; grind

/-- An operation on a handle whose checks pass performs its body. -/
theorem onHandle_of_ok {n : Needs} {h : Byte} {s : State} {body : Slot → Byte → State}
    {sl : Slot} {a : Byte} (hp : precheck n h s = .ok sl) (ha : sl.addr = some a) :
    onHandle n h s body = .next (body sl a) := by
  simp [onHandle, precheckAddr, hp, ha]

/-- Everything an operation on a handle can do: stop with a mark, or perform its body. -/
theorem onHandle_cases {n : Needs} {h : Byte} {s t : State} {body : Slot → Byte → State}
    (hx : onHandle n h s body = .next t) :
    (∃ e, precheckAddr n h s = .error e ∧ t = stop e s) ∨
      ∃ sl a, precheck n h s = .ok sl ∧ sl.addr = some a ∧ t = body sl a := by
  unfold onHandle at hx
  cases hp : precheckAddr n h s with
  | error e => simp only [hp] at hx; exact .inl ⟨e, rfl, by injection hx with hx; exact hx.symm⟩
  | ok x =>
    obtain ⟨sl, a⟩ := x
    simp only [hp] at hx
    obtain ⟨h1, h2⟩ := precheckAddr_ok_iff.1 hp
    exact .inr ⟨sl, a, h1, h2, by injection hx with hx; exact hx.symm⟩

/-- An operation on a handle always answers a next state (60_exceptions.md R240). -/
theorem onHandle_next (n : Needs) (h : Byte) (s : State) (body : Slot → Byte → State) :
    ∃ t, onHandle n h s body = .next t := by
  unfold onHandle
  cases precheckAddr n h s <;> exact ⟨_, rfl⟩

end Sys2Proof.Machine
end

