-- ==== Sys2Proof/Laws/Exec.lean ====
section
/-! SUPPORT. The shape of every operation: which common checks it makes, read off the operation map, and its body. -/

namespace Sys2Proof.Machine

/-- The common checks of an operation as the operation map gives them (60_exceptions.md R245). -/
def needsOf (i : Instr) : Needs :=
  { hostOnly := hostOnly i, input := takesInput i, kind := transportOf? i, idle := needsIdle i }

/-- Every operation that reads ADDR[h] is its common checks followed by a body. -/
theorem exec_onHandle {i : Instr} {h : Byte} (hi : i.handle? = some h)
    (hr : readsAddress i = true) (s : State) :
    ∃ body, exec i s = onHandle (needsOf i) h s body := by
  cases i <;> simp only [Instr.handle?, Option.some.injEq, reduceCtorEq, readsAddress,
    Bool.false_eq_true] at hi hr <;> subst hi <;> exact ⟨_, rfl⟩

/-- SETADDR makes its common checks without reading ADDR[h]. -/
theorem exec_setaddr (a h : Byte) (s : State) :
    exec (.setaddr a h) s =
      match precheck (needsOf (.setaddr a h)) h s with
      | .error e => .next (stop e s)
      | .ok _ => if a = 0#8 then .next (raiseFault .addrZero s)
          else .next (respond okRecord (setAddrOf h a s)) := rfl

/-- The operations that do not read ADDR[h]. -/
theorem eq_of_not_readsAddress {i : Instr} (hr : readsAddress i = false) :
    i = .crc16 ∨ ∃ a h, i = .setaddr a h := by
  cases i <;> simp_all [readsAddress]

/-- An operation whose checks stop it stops, with no other effect (60_exceptions.md R248). -/
theorem exec_of_precheck_error {i : Instr} {h : Byte} {s : State} {e : Stop}
    (hi : i.handle? = some h) (he : precheck (needsOf i) h s = .error e) :
    exec i s = .next (stop e s) := by
  cases hr : readsAddress i with
  | true =>
    obtain ⟨body, hb⟩ := exec_onHandle hi hr s
    rw [hb]; simp only [onHandle, precheckAddr, he]
  | false =>
    obtain rfl | ⟨a, h', rfl⟩ := eq_of_not_readsAddress hr
    · cases hi
    · cases hi; rw [exec_setaddr, he]

end Sys2Proof.Machine
end

