-- ==== Sys2Proof/Laws/PerInstr.lean ====
section
/-! SUPPORT. Per-instruction laws about an operation as text: what the decoder reads from the fields the encoder writes. -/

namespace Sys2Proof.Laws.FieldsDecode

/-- The decoder reads, from the fields the encoder writes for i, the decoder's spelling of i. -/
def Statement (i : Instr) : Prop := decodeFields (fieldsOf i) = .ok (respell i)

theorem crc16 : Statement (.crc16) := rfl
theorem r485enc (fn : Byte) (reg val : Half) (h : Byte) : Statement (.r485enc fn reg val h) := rfl
theorem r485chk (fn : Byte) (reg val : Half) (h : Byte) : Statement (.r485chk fn reg val h) := rfl
theorem r485pos (h : Byte) : Statement (.r485pos h) := rfl
theorem r485wr (reg val : Half) (h : Byte) : Statement (.r485wr reg val h) := rfl
theorem r485rdpos (h : Byte) : Statement (.r485rdpos h) := rfl
theorem r485rdposa (h : Byte) : Statement (.r485rdposa h) := rfl
theorem r485rxcb (h : Byte) : Statement (.r485rxcb h) := rfl
theorem canenc (cmd len : Byte) (sel : Half) (h : Byte) : Statement (.canenc cmd len sel h) := rfl
theorem candec (h : Byte) : Statement (.candec h) := rfl
theorem cansend (cmd len : Byte) (sel : Half) (h : Byte) : Statement (.cansend cmd len sel h) := rfl
theorem canrxcb (h : Byte) : Statement (.canrxcb h) := rfl
theorem setaddr (a h : Byte) : Statement (.setaddr a h) := rfl
theorem set485addr (v : Half) (h : Byte) : Statement (.set485addr v h) := rfl
theorem set485baud (v : Half) (h : Byte) : Statement (.set485baud v h) := rfl
theorem set485mode (v : Half) (h : Byte) : Statement (.set485mode v h) := rfl
theorem set485ret (v : Half) (h : Byte) : Statement (.set485ret v h) := rfl
theorem set485zero (v : Half) (h : Byte) : Statement (.set485zero v h) := rfl
theorem set485dir (v : Half) (h : Byte) : Statement (.set485dir v h) := rfl
theorem canget (h : Byte) : Statement (.canget h) := rfl
theorem cansetid (v : Half) (h : Byte) : Statement (.cansetid v h) := rfl
theorem cansetbaud (v : Half) (h : Byte) : Statement (.cansetbaud v h) := rfl
theorem cansetmode (v : Half) (h : Byte) : Statement (.cansetmode v h) := rfl
theorem cansetret (v : Half) (h : Byte) : Statement (.cansetret v h) := rfl
theorem cansetzero (v : Half) (h : Byte) : Statement (.cansetzero v h) := rfl

end Sys2Proof.Laws.FieldsDecode
end

