-- ==== Sys2Proof/Tests/Slice0.lean ====
section
/-! SUPPORT. The model's own tests: the two well-formedness checks, words written out from the spec, vectors of 95_test_vectors.md, and for every obligation with hypotheses a witness that meets them.
Every expected value is taken from spec/; the vector's name stands in the docstring. -/

namespace Sys2Proof.Tests

-- The kernel evaluates these tests one after another: all at once they need a thread each.
set_option Elab.async false

open Sys2Proof.Machine

/-! ## A small state -/

/-- Five command codes that R107 admits: `cc` of the vectors. -/
def codes : CanCodes := ⟨0xA1#8, 0xA2#8, 0xA3#8, 0xA4#8, 0xA5#8⟩

/-- An RS485 handle on channel 7. -/
def bus (a : Option Byte) (b : Bool) : Slot := ⟨⟨.rs485, 7⟩, a, b⟩

/-- A CAN handle on channel 8. -/
def net (a : Option Byte) (b : Bool) : Slot := ⟨⟨.can, 8⟩, a, b⟩

/-- The configuration of 95_test_vectors.md: NH = 2, KIND = (RS485, CAN), IN_CAP = 16; XSTAT holds the statuses its vectors use. -/
def block (x y : Slot) (f : List Byte) (l : List HostAnswer) : State :=
  { params := ⟨16, codes, [0x01#8, 0x02#8, 0x03#8, 0x04#8, 0x05#8, 0x07#8], 3, 4⟩, slots := [x, y], response := none, faultMark := none,
    refusedMark := none, agent := .client, inPort := f, pending := [], answers := l, draws := 0, calls := [] }

/-- ADDR[0] = 0x01, ADDR[1] = 0x05, nothing in flight. -/
def ready (f : List Byte) (l : List HostAnswer) : State :=
  block (bus (some 0x01#8) false) (net (some 0x05#8) false) f l

/-- The same block with an asynchronous read in flight on handle 0. -/
def inFlight (f : List Byte) : State :=
  block (bus (some 0x01#8) true) (net (some 0x05#8) false) f []

/-- Neither handle has an address. -/
def unset (f : List Byte) : State := block (bus none false) (net none false) f []

/-- The state with one request pending. -/
def issued (a : Agent) (w : OpWord) (f : List Byte) (s : State) : State :=
  { s with pending := [.op ⟨a, w, f⟩] }

/-- What a test looks at in an answer. -/
def seen {α : Type} (g : State → α) : Answer → Option α
  | .next t => some (g t)
  | _ => none

/-- One step on a word issued by an agent, and what it leaves. -/
def look {α : Type} (g : State → α) (a : Agent) (w : OpWord) (f : List Byte) (s : State) : Option α :=
  seen g (step (issued a w f s))

/-- The outcome fields: record and marks. -/
def outcome (s : State) : Option Response × Option Fault × Option Refusal :=
  (s.response, s.faultMark, s.refusedMark)

/-- ADDR and BUSY of both handles. -/
def handles (s : State) : List (Option Byte × Bool) := s.slots.map fun x => (x.addr, x.busy)

/-- A record with a position. -/
def positionIs (p : Position) : Response := { status := .ok, reason := .none, pos := some p }

/-- A rejected position operation. -/
def noPosition (q : Reason) : Response :=
  { status := .invalid, reason := q, pos := some 0xFFFFFFFF#32 }

/-- A position read response of device 0x01 with POS = 0x00017FFF (V-POS-03). -/
def good : List Byte := [0x01#8, 0x03#8, 0x04#8, 0x00#8, 0x01#8, 0x7F#8, 0xFF#8, 0xCB#8, 0x83#8]

/-- The return-time write of V-WR-01 and its echo. -/
def echo : List Byte := [0x01#8, 0x06#8, 0x00#8, 0x07#8, 0x00#8, 0x14#8, 0x38#8, 0x04#8]

/-- A position report of device 0x05 (V-CD-01). -/
def report : List Byte := [0x07#8, 0x05#8, 0x01#8, 0x78#8, 0x56#8, 0x34#8, 0x12#8]

/-! ## Well-formedness: each check accepts a term and refuses one -/

theorem test_wf_handle_in_range : (Instr.r485pos 1#8).WellFormed 2 = true := by decide
theorem test_wf_handle_out_of_range : (Instr.r485pos 2#8).WellFormed 2 = false := by decide
theorem test_wf_spelling : (Instr.r485wr 0x000E#16 1#16 0#8).WellFormed 2 = true := by decide
theorem test_wf_wrong_spelling : (Instr.r485wr 0x0007#16 20#16 0#8).WellFormed 2 = false := by decide
theorem test_wf_wrong_can_spelling : (Instr.cansend 0#8 4#8 0#16 1#8).WellFormed 2 = false := by decide

/-! ## Decoding: words of spec/, and words put together by hand from 30_encoding.md R91 and R93 -/

theorem test_decode_crc_and_setaddr :
    decode 0x0000000000000001#64 = .ok .crc16 ∧
    decode 0x010000000000FF30#64 = .ok (.setaddr 0xFF#8 1#8) := by decide
theorem test_decode_rs485_codec :
    decode 0x0000020000000310#64 = .ok (.r485enc 0x03#8 0#16 2#16 0#8) ∧
    decode 0x0000050004000611#64 = .ok (.r485chk 0x06#8 4#16 5#16 0#8) ∧
    decode 0x0000000000000012#64 = .ok (.r485pos 0#8) := by decide
theorem test_decode_rs485_transactions :
    decode 0x010001000E000018#64 = .ok (.r485wr 0x000E#16 1#16 1#8) ∧
    decode 0x0100000000000019#64 = .ok (.r485rdpos 1#8) ∧
    decode 0x000000000000001A#64 = .ok (.r485rdposa 0#8) ∧
    decode 0x010000000000001B#64 = .ok (.r485rxcb 1#8) := by decide
theorem test_decode_can :
    decode 0x00000001F4050420#64 = .ok (.canenc 4#8 5#8 0x01F4#16 0#8) ∧
    decode 0x0100000000000021#64 = .ok (.candec 1#8) ∧
    decode 0x0100000102050328#64 = .ok (.cansend 3#8 5#8 0x0102#16 1#8) ∧
    decode 0x0100000000000029#64 = .ok (.canrxcb 1#8) := by decide
/-- The six registers of 43_config.md R221, each word one of OP 0x18 with that C. -/
theorem test_decode_rs485_spellings :
    decode 0x0000020004000018#64 = .ok (.set485addr 2#16 0#8) ∧
    decode 0x0000030005000018#64 = .ok (.set485baud 3#16 0#8) ∧
    decode 0x0000030006000018#64 = .ok (.set485mode 3#16 0#8) ∧
    decode 0x0000140007000018#64 = .ok (.set485ret 20#16 0#8) ∧
    decode 0x0000010008000018#64 = .ok (.set485zero 1#16 0#8) ∧
    decode 0x0000010009000018#64 = .ok (.set485dir 1#16 0#8) := by decide
/-- The six commands of 43_config.md R222; a GET_VALUE with another selection is no CANGET. -/
theorem test_decode_can_spellings :
    decode 0x0100000000040028#64 = .ok (.canget 1#8) ∧
    decode 0x0100000001040028#64 = .ok (.cansend 0#8 4#8 1#16 1#8) ∧
    decode 0x0100000007040128#64 = .ok (.cansetid 7#16 1#8) ∧
    decode 0x0100000102040228#64 = .ok (.cansetbaud 0x0102#16 1#8) ∧
    decode 0x0100000007040328#64 = .ok (.cansetmode 7#16 1#8) ∧
    decode 0x0100000014040428#64 = .ok (.cansetret 20#16 1#8) ∧
    decode 0x0100000000040528#64 = .ok (.cansetzero 0#16 1#8) := by decide
/-- V-ENC-16, and the first code above R485POS. -/
theorem test_decode_illegal :
    decode 0x0000020000010310#64 = .error (.unusedField 0x10#8) ∧
    decode 0x0000000000000013#64 = .error (.unknownOp 0x13#8) := by decide
/-- The host's form of a word; 72 bits are no word. -/
theorem test_decode_table_word :
    decodeTableWord 64 0x0000020000000310 = some (.r485enc 0x03#8 0#16 2#16 0#8) ∧
    decodeTableWord 72 0x01 = none := by decide

/-! ## CRC16 -/

/-- V-CRC-06. -/
theorem test_crc16 : look outcome .client 0x01#64
    [0x31#8, 0x32#8, 0x33#8, 0x34#8, 0x35#8, 0x36#8, 0x37#8, 0x38#8, 0x39#8] (unset []) =
    some (some { status := .ok, reason := .none, crc := some 0x4B37#16 }, none, none) := by
  decide +kernel
/-- V-CRC-13. -/
theorem test_crc16_in_cap : look outcome .client 0x01#64 (List.replicate 17 0#8) (unset []) =
    some (none, none, some .inCap) := by decide +kernel

/-! ## RS485 codec -/

/-- V-ENC-03: WRITE_MULTI keeps the 8-byte layout. -/
theorem test_r485enc : look outcome .client 0x000001000B001010#64 [] (ready [] []) =
    some (some { status := .ok, reason := .none, olen := some 8#4,
                 out := some #v[0x01#8, 0x10#8, 0x00#8, 0x0B#8, 0x00#8, 0x01#8, 0x70#8, 0x0B#8] },
      none, none) := by decide +kernel
/-- V-ENC-17: H ≥ NH. -/
theorem test_r485enc_no_handle : look outcome .client 0x0200020000000310#64 [] (ready [] []) =
    some (none, some .illegalOp, none) := by decide +kernel
/-- V-CHK-05. -/
theorem test_r485chk_echo : look outcome .client 0x0000050004000611#64
    [0x01#8, 0x06#8, 0x00#8, 0x04#8, 0x00#8, 0x02#8, 0x49#8, 0xCA#8] (ready [] []) =
    some (some { status := .invalid, reason := .echoMismatch }, none, none) := by decide +kernel
/-- V-CHK-13: the least READ response, N = 0. -/
theorem test_r485chk_read : look outcome .client 0x0000000000000311#64
    [0x01#8, 0x03#8, 0x00#8, 0x20#8, 0xF0#8] (ready [] []) =
    some (some { status := .ok, reason := .none }, none, none) := by decide +kernel
/-- V-POS-02. -/
theorem test_r485pos : look outcome .client 0x12#64
    [0x01#8, 0x03#8, 0x04#8, 0x12#8, 0x34#8, 0x56#8, 0x78#8, 0x81#8, 0x07#8] (ready [] []) =
    some (some (positionIs 0x12345678#32), none, none) := by decide +kernel
/-- V-POS-07. -/
theorem test_r485pos_byte_count : look outcome .client 0x12#64
    [0x01#8, 0x03#8, 0x02#8, 0x12#8, 0x34#8, 0xB5#8, 0x33#8] (ready [] []) =
    some (some (noPosition .byteCount), none, none) := by decide +kernel

/-! ## RS485 transactions -/

/-- V-WR-01, as SET485RET (P1 step 3). -/
theorem test_set485ret : look (fun t => (outcome t, t.calls)) .client 0x0000140007000018#64 []
    (ready [] [.ok [], .ok echo]) =
    some ((some { status := .ok, reason := .none, olen := some 8#4,
                  out := some #v[0x01#8, 0x06#8, 0x00#8, 0x07#8, 0x00#8, 0x14#8, 0x38#8, 0x04#8] },
        none, none), [⟨7, .transmit echo 3⟩, ⟨7, .receive 8 4⟩]) := by decide +kernel
/-- V-ENC-12's frame, as the R485WR that transmits it; the host times out (V-WR-03). -/
theorem test_r485wr : look (fun t => t.response) .client 0x000001000E000018#64 []
    (block (bus (some 0x7F#8) false) (net none false) [] [.ok [], .error 0x02#8]) =
    some (some { status := .transport, reason := .rxFail, xstat := some 0x02#8, olen := some 8#4,
                 out := some #v[0x7F#8, 0x06#8, 0x00#8, 0x0E#8, 0x00#8, 0x01#8, 0x23#8, 0xD7#8] }) := by
  decide +kernel
/-- V-WR-10: the acknowledgement of an address change is checked against the old address. -/
theorem test_set485addr : look (fun t => (t.response.map Response.reason, handles t)) .client
    0x0000020004000018#64 []
    (ready [] [.ok [], .ok [0x02#8, 0x06#8, 0x00#8, 0x04#8, 0x00#8, 0x02#8, 0x49#8, 0xF9#8]]) =
    some (some .addrMismatch, [(some 0x01#8, false), (some 0x05#8, false)]) := by decide +kernel
/-- V-ENC-08's frame. -/
theorem test_set485baud : look (fun t => t.calls) .client 0x0000000005000018#64 [] (ready [] [.error 1#8]) =
    some [⟨7, .transmit [0x01#8, 0x06#8, 0x00#8, 0x05#8, 0x00#8, 0x00#8, 0x99#8, 0xCB#8] 3⟩] := by
  decide +kernel
/-- Register 0x0006 (43_config.md R221). -/
theorem test_set485mode : look (fun t => t.response.map fun r => (r.out.map fun o => (o[2], o[3]))) .client
    0x0000010006000018#64 [] (ready [] [.error 1#8]) = some (some (some (0x00#8, 0x06#8))) := by decide +kernel
/-- V-ENC-09's frame. -/
theorem test_set485zero : look (fun t => t.calls) .client 0x0000010008000018#64 [] (ready [] [.error 1#8]) =
    some [⟨7, .transmit [0x01#8, 0x06#8, 0x00#8, 0x08#8, 0x00#8, 0x01#8, 0xC9#8, 0xC8#8] 3⟩] := by
  decide +kernel
/-- V-ENC-10's frame. -/
theorem test_set485dir : look (fun t => t.calls) .client 0x0000010009000018#64 [] (ready [] [.error 1#8]) =
    some [⟨7, .transmit [0x01#8, 0x06#8, 0x00#8, 0x09#8, 0x00#8, 0x01#8, 0x98#8, 0x08#8] 3⟩] := by
  decide +kernel
/-- V-RD-01. -/
theorem test_r485rdpos : look (fun t => (t.response, t.calls)) .client 0x19#64 []
    (ready [] [.ok [], .ok [0x01#8, 0x03#8, 0x04#8, 0x12#8, 0x34#8, 0x56#8, 0x78#8, 0x81#8, 0x07#8]]) =
    some (some { positionIs 0x12345678#32 with
        olen := some 8#4, out := some #v[0x01#8, 0x03#8, 0x00#8, 0x00#8, 0x00#8, 0x02#8, 0xC4#8, 0x0B#8] },
      [⟨7, .transmit [0x01#8, 0x03#8, 0x00#8, 0x00#8, 0x00#8, 0x02#8, 0xC4#8, 0x0B#8] 3⟩,
       ⟨7, .receive 9 4⟩]) := by decide +kernel
/-- V-RD-03. -/
theorem test_r485rdpos_timeout : look (fun t => (t.response.map fun r => (r.status, r.reason, r.pos)))
    .client 0x19#64 [] (ready [] [.ok [], .error 0x02#8]) =
    some (some (.transport, .rxFail, some 0xFFFFFFFF#32)) := by decide +kernel
/-- V-AS-01. -/
theorem test_r485rdposa : look (fun t => (handles t, t.calls)) .client 0x1A#64 [] (ready [] [.ok []]) =
    some ([(some 0x01#8, true), (some 0x05#8, false)],
      [⟨7, .transmitAsync [0x01#8, 0x03#8, 0x00#8, 0x00#8, 0x00#8, 0x02#8, 0xC4#8, 0x0B#8]⟩]) := by
  decide +kernel
/-- V-AS-03. -/
theorem test_r485rdposa_busy : look outcome .client 0x1A#64 [] (inFlight []) =
    some (none, some .busy, none) := by decide +kernel
/-- V-AS-04. -/
theorem test_r485rxcb : look (fun t => (t.response, handles t)) .host 0x1B#64 good (inFlight []) =
    some (some (positionIs 0x00017FFF#32), [(some 0x01#8, false), (some 0x05#8, false)]) := by decide +kernel
/-- V-AS-08: a client may not issue it. -/
theorem test_r485rxcb_client : look (fun t => (outcome t, handles t)) .client 0x1B#64 good (inFlight []) =
    some ((none, some .illegalOp, none), [(some 0x01#8, true), (some 0x05#8, false)]) := by decide +kernel

/-! ## CAN -/

/-- V-CE-07, on a handle with ADDR = 0x05: cc is the code of SET_RETURN_TIME. -/
theorem test_canenc : look (fun t => t.response) .client 0x01000001F4050420#64 [] (ready [] []) =
    some (some { status := .ok, reason := .none, olen := some 5#4,
                 out := some #v[0x05#8, 0x05#8, 0xA4#8, 0xF4#8, 0x01#8, 0x00#8, 0x00#8, 0x00#8]
                 canId := some 0x005#11, ide := some 0#1, rtr := some 0#1 }) := by decide +kernel
/-- V-CE-12: both wrong, BAD_COMMAND first. -/
theorem test_canenc_both_wrong : look (fun t => t.response.map Response.reason) .client
    0x0100000000FFFF20#64 [] (ready [] []) = some (some .badCommand) := by decide +kernel
/-- V-CD-01. -/
theorem test_candec : look outcome .client 0x0100000000000021#64 report (ready [] []) =
    some (some (positionIs 0x12345678#32), none, none) := by decide +kernel
/-- V-CD-11: all three wrong, the address is reported. -/
theorem test_candec_order : look outcome .client 0x0100000000000021#64
    [0x08#8, 0x06#8, 0x02#8, 0x00#8, 0x00#8, 0x00#8, 0x00#8] (ready [] []) =
    some (some (noPosition .addrMismatch), none, none) := by decide +kernel
/-- V-CS-04: cc is the code of SET_MODE. -/
theorem test_cansend : look (fun t => t.calls) .client 0x0100000102050328#64 [] (ready [] [.ok []]) =
    some [⟨8, .canTransmit [0x05#8, 0x05#8, 0xA3#8, 0x02#8, 0x01#8] 5#8 0x005#11 0#1 0#1⟩] := by
  decide +kernel
/-- V-CS-05. -/
theorem test_cansend_wrong_transport : look outcome .client 0x0000000000040028#64 [] (ready [] []) =
    some (none, some .wrongTransport, none) := by decide +kernel
/-- V-CS-02, as CANGET. -/
theorem test_canget : look (fun t => t.response) .client 0x0100000000040028#64 [] (ready [] [.error 0x05#8]) =
    some (some { status := .transport, reason := .txFail, xstat := some 0x05#8, olen := some 4#4,
                 out := some #v[0x04#8, 0x05#8, 0x01#8, 0x00#8, 0x00#8, 0x00#8, 0x00#8, 0x00#8]
                 canId := some 0x005#11, ide := some 0#1, rtr := some 0#1 }) := by decide +kernel
/-- V-CE-06's frame. -/
theorem test_cansetid : look (fun t => (t.calls, handles t)) .client 0x0100000007040128#64 [] (ready [] [.ok []]) =
    some ([⟨8, .canTransmit [0x04#8, 0x05#8, 0xA1#8, 0x07#8] 4#8 0x005#11 0#1 0#1⟩],
      [(some 0x01#8, false), (some 0x05#8, false)]) := by decide +kernel
/-- Only the low byte of the value is sent (43_config.md R222). -/
theorem test_cansetbaud : look (fun t => t.calls) .client 0x0100000102040228#64 [] (ready [] [.ok []]) =
    some [⟨8, .canTransmit [0x04#8, 0x05#8, 0xA2#8, 0x02#8] 4#8 0x005#11 0#1 0#1⟩] := by decide +kernel
theorem test_cansetmode : look (fun t => t.calls) .client 0x0100000007040328#64 [] (ready [] [.ok []]) =
    some [⟨8, .canTransmit [0x04#8, 0x05#8, 0xA3#8, 0x07#8] 4#8 0x005#11 0#1 0#1⟩] := by decide +kernel
theorem test_cansetret : look (fun t => t.calls) .client 0x0100000014040428#64 [] (ready [] [.ok []]) =
    some [⟨8, .canTransmit [0x04#8, 0x05#8, 0xA4#8, 0x14#8] 4#8 0x005#11 0#1 0#1⟩] := by decide +kernel
theorem test_cansetzero : look (fun t => t.calls) .client 0x0100000000040528#64 [] (ready [] [.ok []]) =
    some [⟨8, .canTransmit [0x04#8, 0x05#8, 0xA5#8, 0x00#8] 4#8 0x005#11 0#1 0#1⟩] := by decide +kernel
/-- V-CS-07: a position outside the semantic bound is accepted. -/
theorem test_canrxcb : look outcome .host 0x0100000000000029#64
    [0x07#8, 0x05#8, 0x01#8, 0x00#8, 0x80#8, 0x01#8, 0x00#8] (ready [] []) =
    some (some (positionIs 0x00018000#32), none, none) := by decide +kernel
/-- V-CS-09. -/
theorem test_canrxcb_unset : look outcome .host 0x0100000000000029#64
    [0x07#8, 0x05#8, 0x01#8, 0x00#8, 0x80#8, 0x01#8, 0x00#8] (unset []) =
    some (none, some .addrUnset, none) := by decide +kernel

/-! ## SETADDR, reset and the assembler -/

/-- V-SET-01. -/
theorem test_setaddr : look (fun t => (t.response, handles t)) .client 0x0530#64 [] (unset []) =
    some (some { status := .ok, reason := .none }, [(some 0x05#8, false), (none, false)]) := by decide +kernel
/-- V-SET-04: F_BUSY before F_ADDR_ZERO. -/
theorem test_setaddr_busy : look outcome .client 0x30#64 [] (inFlight []) =
    some (none, some .busy, none) := by decide +kernel
/-- 70_reset_and_hazards.md R270. -/
theorem test_reset_event : seen (fun t => (handles t, outcome t))
    (step { inFlight [] with response := some okRecord, faultMark := some .busy, pending := [.reset] }) =
    some ([(none, false), (none, false)], none, some .busy, none) := by decide +kernel
/-- The host's first instruction after reset: SETADDR h1, 0xFF. -/
theorem test_first_after_reset : seen handles (step (State.reset.withFetchWord 64 0x010000000000FF30)) =
    some [(none, false), (some 0xFF#8, false)] := by decide +kernel
/-- V-POS-02's line of text. -/
theorem test_assemble_bytes : assemble ("R485POS h0, " ++ String.ofList [openBrace] ++
    "01 03 04 12 34 56 78 81 07" ++ String.ofList [closeBrace]) =
    some (0x12#64, [0x01#8, 0x03#8, 0x04#8, 0x12#8, 0x34#8, 0x56#8, 0x78#8, 0x81#8, 0x07#8]) := by decide +kernel
/-- V-CE-11's line of text: a selector given as a number. -/
theorem test_assemble_selector : assemble "CANENC h0, 0x06, 4, 0x0000" = some (0x0000000000040620#64, []) := by
  decide +kernel

/-! ## Witnesses: concrete states and operands that meet the hypotheses of each obligation -/

/-- Handle 0 of `ready`. -/
theorem configured_bus (f : List Byte) (l : List HostAnswer) :
    Configured (ready f l) 0#8 (bus (some 0x01#8) false) 0x01#8 := ⟨rfl, rfl⟩
/-- Handle 1 of `ready`. -/
theorem configured_net (f : List Byte) (l : List HostAnswer) :
    Configured (ready f l) 1#8 (net (some 0x05#8) false) 0x05#8 := ⟨rfl, rfl⟩
/-- An input of at most 16 bytes fits. -/
theorem input_fits (f : List Byte) (l : List HostAnswer) (h : f.length ≤ 16) : InputFits (ready f l) := h

theorem witness_ResetLeavesTheResetValues :
    { inFlight [] with pending := [.reset] }.pending = .reset :: [] := rfl
theorem witness_StepPerformsTheDecodedOperation :
    (issued .client 0x12#64 good (ready [] [])).pending = [.op ⟨.client, 0x12#64, good⟩] ∧
    decode 0x12#64 = .ok (.r485pos 0#8) := ⟨rfl, by decide⟩
theorem witness_IllegalWordOnlySetsTheFaultMark :
    (issued .host 0x02#64 [] (ready [] [])).pending = [.op ⟨.host, 0x02#64, []⟩] ∧
    decode 0x02#64 = .error (.unknownOp 0x02#8) := ⟨rfl, by decide⟩
theorem witness_DecodeOfEncodeIsTheOperation :
    (Instr.r485wr 0xFFFF#16 0#16 255#8).WellFormed 256 = true ∧
    (Instr.set485addr 2#16 0#8).WellFormed 1 = true := by decide
theorem witness_EncodeOfDecodeIsTheWord :
    decode 0xFFFFFFFFFF000018#64 = .ok (.r485wr 0xFFFF#16 0xFFFF#16 255#8) := by decide
theorem witness_ConfigCommandsAreTheirExpansions :
    registerWrite? (.set485dir 1#16 0#8) = some (0x0009#16, 1#16, 0#8) ∧
    canRequest? (.canget 1#8) = some (0#8, 4#8, 0#16, 1#8) := by decide
/-- The first bit of the prefix, and the last bit of the CRC. -/
theorem witness_CrcDetectsEverySingleBitFlip :
    0 < ([] : List Byte).length + 2 ∧ 0 < 8 ∧ 10 < good.length + 2 ∧ 7 < 8 := by decide
theorem witness_Crc16OperationGivesTheCrc :
    InputFits (ready (List.replicate 16 0#8) []) ∧ ¬ InputFits (ready (List.replicate 17 0#8) []) :=
  ⟨input_fits _ _ (by decide), by unfold InputFits; decide⟩
/-- H = NH, and a host-only operation issued by a client. -/
theorem witness_HandleRangeAndHostOnlyAreChecked :
    (ready [] []).nh ≤ (2#8).toNat ∧ (Instr.candec 2#8).handle? = some 2#8 ∧
    hostOnly (.canrxcb 1#8) = true ∧ (ready [] []).agent = .client := by decide
theorem witness_LongInputIsRefused :
    takesInput (.r485rxcb 1#8) = true ∧ (Instr.r485rxcb 1#8).handle? = some 1#8 ∧
    (1#8).toNat < (ready (List.replicate 17 0#8) []).nh ∧
    { ready (List.replicate 17 0#8) [] with agent := .host }.agent = .host ∧
    ¬ InputFits { ready (List.replicate 17 0#8) [] with agent := .host } :=
  ⟨rfl, rfl, by decide, rfl, by unfold InputFits; decide⟩
theorem witness_WrongTransportFaults :
    transportOf? (.set485ret 20#16 1#8) = some .rs485 ∧
    slotAt (ready [] []) 1#8 = some (net (some 0x05#8) false) ∧ (net (some 0x05#8) false).binding.kind ≠ .rs485 ∧
    transportOf? (.canrxcb 0#8) = some .can ∧
    slotAt (ready [] []) 0#8 = some (bus (some 0x01#8) false) ∧ (bus (some 0x01#8) false).binding.kind ≠ .can := by
  decide
/-- A transaction and SETADDR on a busy handle. -/
theorem witness_BusyHandleFaults :
    slotAt (inFlight []) 0#8 = some (bus (some 0x01#8) true) ∧ needsIdle (.set485zero 1#16 0#8) = true ∧
    transportOf? (.set485zero 1#16 0#8) = some .rs485 ∧ needsIdle (.setaddr 0#8 0#8) = true ∧
    transportOf? (.setaddr 0#8 0#8) = none := by decide
theorem witness_UnsetAddressFaults :
    slotAt (unset good) 0#8 = some (bus none false) ∧ readsAddress (.r485pos 0#8) = true ∧
    takesInput (.r485pos 0#8) = true ∧ transportOf? (.r485pos 0#8) = none ∧ needsIdle (.r485pos 0#8) = false ∧
    InputFits (unset good) := ⟨rfl, rfl, rfl, rfl, rfl, by unfold InputFits; decide⟩
theorem witness_R485enc :
    Configured (ready [] []) 0#8 (bus (some 0x01#8) false) 0x01#8 ∧
    0x10#8 ∈ [0x03#8, 0x06#8, 0x10#8] ∧ 0x04#8 ∉ [0x03#8, 0x06#8, 0x10#8] :=
  ⟨configured_bus _ _, by decide, by decide⟩
/-- Hypotheses of R485chkReportsTheFirstFailure and R485chkRefusesWriteMulti, at the shortest and the longest input. -/
theorem witness_R485chk :
    Configured (ready [] []) 0#8 (bus (some 0x01#8) false) 0x01#8 ∧ InputFits (ready [] []) ∧
    InputFits (ready (List.replicate 16 0x01#8) []) ∧ 0x11#8 ∉ [0x03#8, 0x06#8, 0x10#8] :=
  ⟨configured_bus _ _, input_fits _ _ (by decide), input_fits _ _ (by decide), by decide⟩
/-- The two sides of R485chkAcceptsExactlyTheEcho. -/
theorem witness_R485chkAcceptsExactlyTheEcho :
    (ready (echo ++ [0xAA#8]) []).inPort.take 8 = rs485Request 0x01#8 0x06#8 0x0007#16 0x0014#16 ∧
    (ready [] []).inPort.take 8 ≠ rs485Request 0x01#8 0x06#8 0x0007#16 0x0014#16 := by decide +kernel
/-- The right side of R485chkAcceptsExactlyAReadResponse, for N = 0 and N = 4. -/
theorem witness_R485chkAcceptsExactlyAReadResponse :
    [0x01#8, 0x03#8, 0x00#8, 0x20#8, 0xF0#8] = rs485ReadResponse 0x01#8 [] ++ [] ∧
    good ++ [0x00#8] = rs485ReadResponse 0x01#8 [0x00#8, 0x01#8, 0x7F#8, 0xFF#8] ++ [0x00#8] := by decide +kernel
/-- Both clauses of R485posGivesThePositionOrTheSentinel and R485rxcbClearsBusyAndDecodes. -/
theorem witness_R485position :
    good = positionFrame 0x01#8 0x00017FFF#32 ++ [] ∧
    ∀ (p : Position) (extra : List Byte), ([] : List Byte) ≠ positionFrame 0x01#8 p ++ extra :=
  ⟨by decide +kernel, fun _ _ h => List.cons_ne_nil _ _ h.symm⟩
theorem witness_R485posRejectsOtherByteCounts :
    [0x01#8, 0x03#8, 0x02#8, 0x12#8, 0x34#8, 0xB5#8, 0x33#8] = rs485ReadResponse 0x01#8 [0x12#8, 0x34#8] ++ [] ∧
    [0x12#8, 0x34#8].length ≤ 255 ∧ [0x12#8, 0x34#8].length ≠ 4 := by decide +kernel
/-- The last bit of each frame. -/
theorem witness_Rs485DetectsEverySingleBitFlip :
    InputFits (ready (flipBit (positionFrame 0x01#8 0#32) 8 7) []) ∧ 8 < 9 ∧ 7 < 8 ∧
    InputFits (ready (flipBit (rs485Request 0x01#8 0x06#8 4#16 2#16) 7 7) []) ∧ 7 < 8 := by
  unfold InputFits; decide +kernel
/-- With no answer scripted, the free draw meets the hypotheses of one clause or of the other. -/
theorem witness_free_draw (n : Nat) :
    (∃ d, answerAt (ready [] []) n = .ok d) ∨
      ∃ x ∈ (ready [] []).params.xstat, answerAt (ready [] []) n = .error x := admittedAnswer_cases _ _
/-- Both outcomes of the echo, and the two error answers. -/
theorem witness_RegisterWrite :
    registerWrite? (.set485ret 20#16 0#8) = some (0x0007#16, 20#16, 0#8) ∧
    registerWrite? (.r485wr 0x0007#16 20#16 0#8) = some (0x0007#16, 20#16, 0#8) ∧
    (bus (some 0x01#8) false).binding.kind = .rs485 ∧ (bus (some 0x01#8) false).busy = false ∧
    answerAt (ready [] [.ok [], .ok echo]) 0 = .ok [] ∧ answerAt (ready [] [.ok [], .ok echo]) 1 = .ok echo ∧
    exactBytes 1 8 echo = rs485Request 0x01#8 0x06#8 0x0007#16 20#16 ∧
    exactBytes 1 8 (List.replicate 8 0#8) ≠ rs485Request 0x01#8 0x06#8 0x0007#16 20#16 ∧
    answerAt (ready [] [.error 3#8]) 0 = .error 3#8 ∧
    answerAt (ready [] [.ok [], .error 2#8]) 1 = .error 2#8 := by decide +kernel
/-- Both clauses of R485rdposReadsThePosition; its answers are those of `witness_RegisterWrite`. -/
theorem witness_R485rdpos :
    answerAt (ready [] [.ok [], .ok good]) 1 = .ok good ∧
    exactBytes 1 9 good = positionFrame 0x01#8 0x00017FFF#32 ∧
    ∀ p, exactBytes 1 9 (List.replicate 9 0#8) ≠ positionFrame 0x01#8 p :=
  ⟨rfl, by decide +kernel, fun _ h => absurd (List.cons.inj h).1 (by decide)⟩
/-- Hypotheses of R485rdposaSetsBusy, and of the three clauses of AsyncReadHoldsTheHandle: a busy handle, a step of another operation, SETADDR. -/
theorem witness_R485rdposa :
    answerAt (ready [] [.ok []]) 0 = .ok [] ∧ answerAt (ready [] [.error 4#8]) 0 = .error 4#8 ∧
    slotAt (inFlight []) 0#8 = some (bus (some 0x01#8) true) ∧
    (issued .client 0x1B#64 good (inFlight [])).pending = [.op ⟨.client, 0x1B#64, good⟩] ∧
    (∃ t, step (issued .client 0x1B#64 good (inFlight [])) = .next t) ∧
    (Instr.setaddr 2#8 0#8).handle? = some 0#8 ∧ needsIdle (.setaddr 2#8 0#8) = true :=
  ⟨rfl, rfl, rfl, rfl, ⟨_, rfl⟩, rfl, rfl⟩
theorem witness_R485rxcbClearsBusyAndDecodes :
    Configured { inFlight good with agent := .host } 0#8 (bus (some 0x01#8) true) 0x01#8 ∧
    (bus (some 0x01#8) true).binding.kind = .rs485 ∧ InputFits { inFlight good with agent := .host } :=
  ⟨⟨rfl, rfl⟩, rfl, by unfold InputFits; decide⟩
theorem witness_StaleDeliveryAfterResetFaults :
    { inFlight [] with pending := [.reset, .op ⟨.host, 0x1B#64, good⟩] }.pending =
      .reset :: .op ⟨.host, 0x1B#64, good⟩ :: [] ∧
    decode 0x1B#64 = .ok (.r485rxcb 0#8) ∧ slotAt (inFlight []) 0#8 = some (bus (some 0x01#8) true) ∧
    good.length ≤ (inFlight []).params.inCap := by decide
/-- The least and the greatest selector and length. -/
theorem witness_CanencBuildsTheRequestFrame :
    Configured (ready [] []) 1#8 (net (some 0x05#8) false) 0x05#8 ∧
    (0#8).toNat ≤ 5 ∧ (5#8).toNat ≤ 5 ∧ 3#8 ∈ [3#8, 4#8, 5#8] ∧ 5#8 ∈ [3#8, 4#8, 5#8] :=
  ⟨configured_net _ _, by decide, by decide, by decide, by decide⟩
/-- The values next to the admitted ones. -/
theorem witness_CanContractViolationsAreRejected :
    5 < (6#8).toNat ∧ 2#8 ∉ [3#8, 4#8, 5#8] ∧ 6#8 ∉ [3#8, 4#8, 5#8] ∧
    (net (some 0x05#8) false).binding.kind = .can := by decide
theorem witness_CanCommandCodesAreDistinct : codes.Distinct = true := by decide
/-- Both clauses of CandecGivesThePositionOrTheSentinel and CanrxcbDecodesTheDelivery; CandecReportsTheFirstFailure has these hypotheses too. -/
theorem witness_Candec :
    report = positionReport 0x05#8 0x12345678#32 ++ [] ∧
    (∀ (p : Position) (extra : List Byte), ([] : List Byte) ≠ positionReport 0x05#8 p ++ extra) ∧
    Configured { ready report [] with agent := .host } 1#8 (net (some 0x05#8) false) 0x05#8 ∧
    InputFits { ready report [] with agent := .host } :=
  ⟨by decide, fun _ _ h => List.cons_ne_nil _ _ h.symm, ⟨rfl, rfl⟩, by unfold InputFits; decide⟩
/-- The last bit of the header, and the last of the payload. -/
theorem witness_CanReportFlipsInHeaderAndPayload :
    [0x07#8, 0x05#8, 0x81#8, 0x78#8, 0x56#8, 0x34#8, 0x12#8] = flipBit (positionReport 0x05#8 0x12345678#32) 2 7 ∧
    [0x07#8, 0x05#8, 0x01#8, 0x78#8, 0x56#8, 0x34#8, 0x92#8] = flipBit (positionReport 0x05#8 0x12345678#32) 6 7 := by
  decide
theorem witness_CansendTransmitsTheFrame :
    canRequest? (.cansetzero 7#16 1#8) = some (5#8, 4#8, 7#16, 1#8) ∧
    canRequest? (.cansend 0#8 3#8 7#16 1#8) = some (0#8, 3#8, 7#16, 1#8) ∧
    answerAt (ready [] [.ok []]) 0 = .ok [] ∧ answerAt (ready [] [.error 5#8]) 0 = .error 5#8 :=
  ⟨rfl, rfl, rfl, rfl⟩
theorem witness_SetaddrWritesTheAddress :
    slotAt (unset []) 1#8 = some (net none false) ∧ (net none false).busy = false ∧ 0xFF#8 ≠ 0x00#8 := by decide
/-- The frames: an operation of each shape answers a next state. -/
theorem witness_frames :
    (∃ t, exec (.r485pos 0#8) (ready good []) = .next t) ∧ isCodec (.r485pos 0#8) = true ∧
    (∃ t, exec (.canrxcb 1#8) (ready report []) = .next t) ∧
    (∃ t, exec (.set485ret 20#16 0#8) (ready [] [.ok [], .ok echo]) = .next t) ∧
    (∃ t, exec (.cansetid 2#16 1#8) (ready [] [.ok []]) = .next t) ∧
    (∃ t, exec (.r485rdposa 0#8) (ready [] [.ok []]) = .next t) ∧
    (∃ t, exec (.r485rxcb 0#8) { inFlight good with agent := .host } = .next t) ∧
    ∃ t, exec (.setaddr 2#8 0#8) (ready [] []) = .next t :=
  ⟨⟨_, rfl⟩, rfl, ⟨_, rfl⟩, ⟨_, rfl⟩, ⟨_, rfl⟩, ⟨_, rfl⟩, ⟨_, rfl⟩, ⟨_, rfl⟩⟩
/-- A step on a marked state. -/
theorem witness_MarksAreNeverCleared :
    ∃ t, step { issued .client 0x01#64 [] (ready [] []) with faultMark := some .busy, refusedMark := some .inCap } =
      .next t := ⟨_, rfl⟩
theorem witness_FaultOrRefusalChangesOnlyTheMark :
    (unset []).Final ∧ exec (.r485pos 0#8) (unset []) = .next (raiseFault .addrUnset (unset [])) ∧
    ¬ (raiseFault .addrUnset (unset [])).Final := ⟨⟨rfl, rfl⟩, rfl, fun h => nomatch h.1⟩
/-- Steps that write ADDR[0] and BUSY[0]: SETADDR, R485RDPOSA, R485RXCB, reset. -/
theorem witness_whole_block_steps :
    seen handles (step (issued .client 0x0230#64 [] (ready [] []))) =
      some [(some 0x02#8, false), (some 0x05#8, false)] ∧
    seen handles (step (issued .client 0x1A#64 [] (ready [] [.ok []]))) =
      some [(some 0x01#8, true), (some 0x05#8, false)] ∧
    seen handles (step (issued .host 0x1B#64 [] (inFlight []))) =
      some [(some 0x01#8, false), (some 0x05#8, false)] ∧
    seen handles (step { inFlight [] with pending := [.reset] }) = some [(none, false), (none, false)] := by
  decide +kernel
/-- A state of the invariant that is not the reset state: a read in flight and a record. -/
theorem witness_EveryStepKeepsTheInvariant : { inFlight [] with response := some okRecord }.Inv where
  handles := by decide
  params := by decide
  slots := by
    intro sl h
    rcases List.mem_cons.1 h with rfl | h
    · exact ⟨by decide, fun _ => ⟨rfl, rfl⟩⟩
    · rw [List.mem_singleton.1 h]
      exact ⟨by decide, fun h => nomatch h⟩
  record := by
    rintro r ⟨⟩
    exact ⟨by decide, by decide, .inl ⟨rfl, rfl⟩, fun h => absurd rfl h, .inl ⟨rfl, rfl, rfl⟩⟩
  xstat := by rintro r x ⟨⟩ h; cases h
  marks := .inl rfl
/-- Operations on handle 0, on handle 1 and on none, beside another slot. -/
theorem witness_HandlesShareNoState :
    (Instr.setaddr 2#8 0#8).handle? = some 0#8 ∧ (0#8).toNat ≠ 1 ∧
    (Instr.canget 1#8).handle? = some 1#8 ∧ (1#8).toNat ≠ 0 ∧ Instr.crc16.handle? = none := by decide
theorem witness_CodecOperationsIgnoreBindingAndBusy :
    isCodec (.canenc 0#8 4#8 0#16 0#8) = true ∧ slotAt (ready [] []) 0#8 = some (bus (some 0x01#8) false) := by decide
theorem witness_InputOfOtherOperationsIsIgnored :
    takesInput (.r485wr 0#16 0#16 0#8) = false ∧ takesInput (.setaddr 1#8 0#8) = false := by decide

end Sys2Proof.Tests
end

section
/-! ## Proofs of the state family
The layers, in the order the obligations use them: the form of the records that operations write, the common checks, what a completing operation does to the state, what a step does, and the invariant. -/

namespace Sys2Proof.Machine

/-! ### Records: every record an operation writes has the form of R39 and R241 to R243 -/

/-- The record has its form, and its XSTAT is a byte of the parameter XSTAT. -/
structure Response.Fits (set : List Byte) (r : Response) : Prop where
  form : r.Ok
  xstat_mem : ∀ x, r.xstat = some x → x ∈ set

theorem outPort_getElem (f : List Byte) (i : Fin 8) : (outPort f)[i] = byteAt f i := by
  fin_cases i <;> rfl

/-- OUT is padded from OLEN on, for every frame that the port can hold (20_memory.md R61). -/
theorem outPadded_outPort {f : List Byte} (hf : f.length ≤ 8) :
    outPadded (BitVec.ofNat 4 f.length) (outPort f) := by
  have hn : (BitVec.ofNat 4 f.length).toNat = f.length := by
    rw [BitVec.toNat_ofNat]; exact Nat.mod_eq_of_lt (by omega)
  refine ⟨hn.symm ▸ hf, fun i hi => ?_⟩
  rw [outPort_getElem]
  exact List.getD_eq_default _ _ (hn ▸ hi)

theorem okRecord_fits (set : List Byte) : okRecord.Fits set where
  form := ⟨by decide, by decide, .inl ⟨rfl, rfl⟩, fun h => absurd rfl h, .inl ⟨rfl, rfl, rfl⟩⟩
  xstat_mem := nofun

theorem crcRecord_fits (set : List Byte) (c : Half) : ({ okRecord with crc := some c } : Response).Fits set where
  form := ⟨by simp [okRecord], by simp [okRecord], .inl ⟨rfl, rfl⟩, fun h => absurd rfl h, .inl ⟨rfl, rfl, rfl⟩⟩
  xstat_mem := nofun

theorem rejectRecord_fits (set : List Byte) {e : Status} {q : Reason} (he : e ≠ .ok) (ht : e ≠ .transport)
    (hq : q ≠ .none) : (rejectRecord e q).Fits set where
  form := ⟨⟨fun h => absurd h he, fun h => absurd h hq⟩, ⟨nofun, fun h => absurd h ht⟩, .inl ⟨rfl, rfl⟩,
    fun _ => .inl rfl, .inl ⟨rfl, rfl, rfl⟩⟩
  xstat_mem := nofun

theorem transportRecord_fits {set : List Byte} {q : Reason} {x : Byte} (hq : q ≠ .none) (hx : x ∈ set) :
    (transportRecord q x).Fits set where
  form := ⟨⟨nofun, fun h => absurd h hq⟩, ⟨fun _ => rfl, fun _ => rfl⟩, .inl ⟨rfl, rfl⟩,
    fun _ => .inl rfl, .inl ⟨rfl, rfl, rfl⟩⟩
  xstat_mem := by rintro _ ⟨⟩; exact hx

theorem withFrame_fits {set : List Byte} {f : List Byte} {r : Response} (hf : f.length ≤ 8)
    (hr : r.Fits set) : (withFrame f r).Fits set where
  form := { hr.form with frame := .inr ⟨_, _, rfl, rfl, outPadded_outPort hf⟩ }
  xstat_mem := hr.xstat_mem

theorem withCanLabel_fits {set : List Byte} (a : Byte) {r : Response} (hr : r.Fits set) :
    (withCanLabel a r).Fits set where
  form := { hr.form with
    label := .inr ⟨⟨_, rfl, by rw [BitVec.toNat_setWidth]; exact Nat.lt_of_le_of_lt (Nat.mod_le ..) a.isLt⟩, rfl, rfl⟩ }
  xstat_mem := hr.xstat_mem

theorem withPos_fits {set : List Byte} {p : Position} {r : Response} (hp : r.status ≠ .ok → p = Config.sentinel)
    (hr : r.Fits set) : (withPos p r).Fits set where
  form := { hr.form with sentinel := fun h => .inr (congrArg some (hp h)) }
  xstat_mem := hr.xstat_mem

theorem validationRecord_fits (set : List Byte) {e : Except Reason Unit} (he : e ≠ .error .none) :
    (validationRecord e).Fits set := by
  cases e with
  | ok _ => exact okRecord_fits set
  | error q => exact rejectRecord_fits set nofun nofun fun h => he (congrArg _ h)

theorem positionRecord_fits (set : List Byte) {e : Except Reason Position} (he : e ≠ .error .none) :
    (positionRecord e).Fits set := by
  cases e with
  | ok p => exact withPos_fits (fun h => absurd rfl h) (okRecord_fits set)
  | error q =>
    exact withPos_fits (fun _ => rfl) (rejectRecord_fits set nofun nofun fun h => he (congrArg _ h))

/-! No check fails with the reason NONE (60_exceptions.md R243). -/

theorem validateHeader_ne_none (f : List Byte) (a fn : Byte) : validateHeader f a fn ≠ .error .none := by
  unfold validateHeader
  split_ifs <;> nofun

theorem validateReadForm_ne_none (f : List Byte) : validateReadForm f ≠ .error .none := by
  unfold validateReadForm
  split_ifs <;> nofun

theorem validateAckForm_ne_none (f : List Byte) (reg val : Half) : validateAckForm f reg val ≠ .error .none := by
  unfold validateAckForm
  split_ifs <;> nofun

theorem validateRead_ne_none (f : List Byte) (a : Byte) : validateRead f a ≠ .error .none := by
  unfold validateRead
  split
  next q hq => exact hq ▸ validateHeader_ne_none f a _
  next => exact validateReadForm_ne_none f

theorem validateAck_ne_none (f : List Byte) (a : Byte) (reg val : Half) : validateAck f a reg val ≠ .error .none := by
  unfold validateAck
  split
  next q hq => exact hq ▸ validateHeader_ne_none f a _
  next => exact validateAckForm_ne_none f reg val

theorem rs485Position_ne_none (f : List Byte) (a : Byte) : rs485Position f a ≠ .error .none := by
  unfold rs485Position
  split
  next q hq => exact fun h => validateRead_ne_none f a (hq.trans (congrArg _ (Except.error.inj h)))
  next => split_ifs <;> nofun

theorem canReport_ne_none (f : List Byte) (a : Byte) : canReport f a ≠ .error .none := by
  unfold canReport
  split_ifs <;> nofun

/-- An encoder fails with a reason, or its frame fits the output port (30_encoding.md R103). -/
theorem canRequest_cases (k : CanCodes) (a cmd len : Byte) (sel : Half) :
    (∃ q, q ≠ .none ∧ canRequest k a cmd len sel = .error q) ∨
      ∃ f, f.length ≤ 8 ∧ canRequest k a cmd len sel = .ok f := by
  unfold canRequest
  cases commandOfSelector cmd with
  | none => exact .inl ⟨.badCommand, nofun, rfl⟩
  | some c =>
    cases hp : canPayload len sel with
    | none => exact .inl ⟨.badLength, nofun, rfl⟩
    | some p =>
      have hlen : p.length ≤ 2 := by
        unfold canPayload at hp
        split_ifs at hp <;> cases hp <;> simp
      exact .inr ⟨_, by simp; omega, rfl⟩

theorem rs485Request_length (a fn : Byte) (reg val : Half) : (rs485Request a fn reg val).length = 8 := rfl

/-! ### The common checks -/

/-- A mark the spec lists: not the host's word for an unmodelled instruction (60_exceptions.md R251, R252). -/
def Stop.OfSpec (e : Stop) : Prop := (∃ f, e = .fault f) ∨ e = .refuse .writeMultiResponse ∨ e = .refuse .inCap

/-- A stop of the common checks is a fault, or Q_IN_CAP for an operation that takes IN (60_exceptions.md R245). -/
theorem precheck_error_cases {n : Needs} {h : Byte} {s : State} {e : Stop} (he : precheck n h s = .error e) :
    (∃ f, e = .fault f) ∨ n.input = true ∧ e = .refuse .inCap := by
  unfold precheck at he
  cases hs : slotAt s h with
  | none => simp only [hs] at he; cases he; exact .inl ⟨_, rfl⟩
  | some sl =>
    simp only [hs] at he
    split_ifs at he with _ hin
    · cases he; exact .inl ⟨_, rfl⟩
    · cases he; exact .inr ⟨(Bool.and_eq_true _ _ ▸ hin).1, rfl⟩
    · cases he; exact .inl ⟨_, rfl⟩
    · cases he; exact .inl ⟨_, rfl⟩

theorem precheckAddr_error_cases {n : Needs} {h : Byte} {s : State} {e : Stop} (he : precheckAddr n h s = .error e) :
    (∃ f, e = .fault f) ∨ n.input = true ∧ e = .refuse .inCap := by
  unfold precheckAddr at he
  cases hp : precheck n h s with
  | error e' => simp only [hp] at he; cases he; exact precheck_error_cases hp
  | ok sl =>
    cases ha : sl.addr with
    | none => simp only [hp, ha] at he; cases he; exact .inl ⟨_, rfl⟩
    | some a => simp only [hp, ha] at he; cases he

/-- Step 3 of 60_exceptions.md R245 stops a handle of the other kind, whatever BUSY and ADDR are. -/
theorem precheck_wrongTransport {n : Needs} {h : Byte} {s : State} {sl : Slot} {k : Kind}
    (hsl : slotAt s h = some sl) (hhost : n.hostOnly = true → s.agent = .host)
    (hin : n.input = true → InputFits s) (hk : n.kind = some k) (hne : sl.binding.kind ≠ k) :
    precheck n h s = .error (.fault .wrongTransport) := by
  have h1 : ¬ (n.hostOnly && s.agent != .host) = true := by simpa using hhost
  have h2 : ¬ (n.input && decide (s.params.inCap < s.inPort.length)) = true := by simpa [InputFits] using hin
  have h3 : (n.kind.any fun k => k != sl.binding.kind) = true := by simpa [hk] using hne.symm
  simp only [precheck, hsl]
  rw [if_neg h1, if_neg h2, if_pos h3]

/-- Step 4 of 60_exceptions.md R245 stops a busy handle, whatever ADDR is. -/
theorem precheck_busy {n : Needs} {h : Byte} {s : State} {sl : Slot}
    (hsl : slotAt s h = some sl) (hhost : n.hostOnly = true → s.agent = .host)
    (hin : n.input = true → InputFits s) (hk : ∀ k, n.kind = some k → sl.binding.kind = k)
    (hidle : n.idle = true) (hbusy : sl.busy = true) : precheck n h s = .error (.fault .busy) := by
  have h1 : ¬ (n.hostOnly && s.agent != .host) = true := by simpa using hhost
  have h2 : ¬ (n.input && decide (s.params.inCap < s.inPort.length)) = true := by simpa [InputFits] using hin
  have h3 : ¬ (n.kind.any fun k => k != sl.binding.kind) = true := by
    simpa [Option.any_eq_true] using fun k hn => (hk k hn).symm
  simp only [precheck, hsl]
  rw [if_neg h1, if_neg h2, if_neg h3, if_pos (by simp [hidle, hbusy])]

/-- Step 5 of 60_exceptions.md R245 stops an operation on a handle whose ADDR is UNSET. -/
theorem onHandle_of_unset {n : Needs} {h : Byte} {s : State} {body : Slot → Byte → State} {sl : Slot}
    (hp : precheck n h s = .ok sl) (ha : sl.addr = none) :
    onHandle n h s body = .next (raiseFault .addrUnset s) := by
  simp only [onHandle, precheckAddr, hp, ha, stop_fault]

/-- No operation that BUSY gates is host-only or takes IN (30_encoding.md R93, 10_state.md R36). -/
theorem needsIdle_plain {i : Instr} (hi : needsIdle i = true) : hostOnly i = false ∧ takesInput i = false := by
  cases i <;> simp_all [needsIdle, registerWrite?, hostOnly, takesInput]

/-- Settles O17: the transport check is the first of the common checks that fails. -/
theorem wrongTransportFaults : Obligations.WrongTransportFaults := by
  intro i h k sl s hi hk hsl hne hhost hin
  exact exec_of_precheck_error hi (precheck_wrongTransport hsl hhost hin hk hne)

/-- Settles O18: the busy check stops the operation before ADDR is read. -/
theorem busyHandleFaults : Obligations.BusyHandleFaults := by
  intro i h sl s hi hidle hsl hbusy hk
  obtain ⟨hhost, hin⟩ := needsIdle_plain hidle
  exact exec_of_precheck_error hi
    (precheck_busy (n := needsOf i) hsl (by simp [needsOf, hhost]) (by simp [needsOf, hin]) hk hidle hbusy)

/-- Settles O19: the checks before the read of ADDR pass, and the read stops the operation. -/
theorem unsetAddressFaults : Obligations.UnsetAddressFaults := by
  intro i h sl s hi hr hsl ha hhost hin hk hidle
  obtain ⟨body, hbody⟩ := exec_onHandle hi hr s
  have hp : precheck (needsOf i) h s = .ok sl := precheck_ok_iff.2 ⟨hsl, hhost, hin, hk, hidle⟩
  exact hbody.trans (onHandle_of_unset hp ha)

/-! ### Host calls -/

/-- A transmit primitive takes one draw and answers ok or a byte of XSTAT (60_exceptions.md R256, R257). -/
theorem sendOn_cases (ch : Nat) (p : HostPrimitive) (s : State) :
    ∃ c, (∃ x ∈ s.params.xstat, sendOn ch p s = (some x, takeDraw c s)) ∨
      sendOn ch p s = (none, takeDraw c s) := by
  rw [sendOn_eq]
  refine ⟨⟨ch, p⟩, ?_⟩
  cases ha : answerAt s 0 with
  | ok data => exact .inr rfl
  | error x => exact .inl ⟨x, answerAt_error ha, rfl⟩

/-- `receive` takes one draw and answers bytes or a byte of XSTAT (60_exceptions.md R256, R257). -/
theorem receiveOn_cases (ch n : Nat) (s : State) :
    ∃ c, (∃ x ∈ s.params.xstat, receiveOn ch n s = (.error x, takeDraw c s)) ∨
      ∃ bytes, receiveOn ch n s = (.ok bytes, takeDraw c s) := by
  rw [receiveOn_eq]
  refine ⟨⟨ch, .receive n s.params.tRx⟩, ?_⟩
  cases ha : answerAt s 0 with
  | ok data => exact .inr ⟨_, rfl⟩
  | error x => exact .inl ⟨x, answerAt_error ha, rfl⟩

/-! ### What an operation does, said once -/

/-- What a completing operation does to the state besides writing its record: at most two host calls, or the one handle field that R485RDPOSA, R485RXCB and SETADDR write. -/
inductive Effect (i : Instr) (s : State) : State → Prop
  | none : Effect i s s
  | oneCall (c : HostCall) : Effect i s (takeDraw c s)
  | twoCalls (c c' : HostCall) : Effect i s (takeDraw c' (takeDraw c s))
  | setBusy {h a : Byte} {sl : Slot} (c : HostCall) (hi : i = .r485rdposa h) (hsl : slotAt s h = some sl)
      (hkind : sl.binding.kind = .rs485) (haddr : sl.addr = some a) :
      Effect i s (setBusyOf h true (takeDraw c s))
  | clearBusy {h : Byte} (hi : i = .r485rxcb h) (hagent : s.agent = .host) : Effect i s (setBusyOf h false s)
  | setAddr {a h : Byte} (hi : i = .setaddr a h) (ha : a ≠ 0#8) : Effect i s (setAddrOf h a s)

/-- The two ways an operation ends: it stops with a mark of the spec, or it completes with a record (00_scope.md R13). -/
inductive OpOutcome (i : Instr) (s : State) : State → Prop
  | stopped {e : Stop} (he : e.OfSpec) : OpOutcome i s (stop e s)
  | completed {u : State} {r : Response} (hu : Effect i s u) (hr : r.Fits s.params.xstat) :
      OpOutcome i s (respond r u)

theorem OpOutcome.fault (i : Instr) (s : State) (f : Fault) : OpOutcome i s (raiseFault f s) :=
  .stopped (.inl ⟨f, rfl⟩)

theorem OpOutcome.refusedInCap (i : Instr) (s : State) : OpOutcome i s (refuseWith .inCap s) :=
  .stopped (.inr (.inr rfl))

section Shapes
variable {i : Instr} {h : Byte} {s t : State}

/-- An operation on a handle ends as its body does where its checks pass. -/
theorem onHandle_outcome {n : Needs} {body : Slot → Byte → State} (hx : onHandle n h s body = .next t)
    (hbody : ∀ sl a, OpOutcome i s (body sl a)) : OpOutcome i s t := by
  obtain ⟨e, he, rfl⟩ | ⟨sl, a, -, -, rfl⟩ := onHandle_cases hx
  · obtain ⟨f, rfl⟩ | ⟨-, rfl⟩ := precheckAddr_error_cases he
    · exact .fault i s f
    · exact .refusedInCap i s
  · exact hbody sl a

/-- The write round trip makes one call or two, and writes no handle (41_rs485.md R161). -/
theorem writeRoundTrip_outcome {reg val : Half} (hx : writeRoundTrip reg val h s = .next t) :
    OpOutcome i s t := by
  refine onHandle_outcome hx fun sl a => ?_
  have hlen := (rs485Request_length a (funcCode .writeSingle) reg val).le
  obtain ⟨c, ⟨x, hmem, hs⟩ | hs⟩ :=
    sendOn_cases sl.binding.transport (.transmit (rs485Request a (funcCode .writeSingle) reg val) s.params.tTx) s
  · simp only [hs]
    exact .completed (.oneCall c) (withFrame_fits hlen (transportRecord_fits nofun hmem))
  · simp only [hs]
    obtain ⟨c', ⟨x, hmem, hr⟩ | ⟨bytes, hr⟩⟩ :=
      receiveOn_cases sl.binding.transport writeAckLength (takeDraw c s)
    · simp only [hr]
      exact .completed (.twoCalls c c') (withFrame_fits hlen (transportRecord_fits nofun hmem))
    · simp only [hr]
      exact .completed (.twoCalls c c')
        (withFrame_fits hlen (validationRecord_fits _ (validateAck_ne_none bytes a reg val)))

/-- The CAN request makes at most one call, and writes no handle (42_can.md R195). -/
theorem sendRequest_outcome {cmd len : Byte} {sel : Half} (hx : sendRequest cmd len sel h s = .next t) :
    OpOutcome i s t := by
  refine onHandle_outcome hx fun sl a => ?_
  obtain ⟨q, hq, hf⟩ | ⟨f, hlen, hf⟩ := canRequest_cases s.params.canCodes a cmd len sel
  · simp only [hf]
    exact .completed .none (withFrame_fits (Nat.zero_le 8) (rejectRecord_fits _ nofun nofun hq))
  · simp only [hf]
    obtain ⟨c, ⟨x, hmem, hs⟩ | hs⟩ :=
      sendOn_cases sl.binding.transport (.canTransmit f len (a.setWidth 11) 0#1 0#1) s
    · simp only [hs]
      exact .completed (.oneCall c)
        (withCanLabel_fits a (withFrame_fits hlen (transportRecord_fits nofun hmem)))
    · simp only [hs]
      exact .completed (.oneCall c) (withCanLabel_fits a (withFrame_fits hlen (okRecord_fits _)))

/-- The blocking position read makes one call or two, and writes no handle (41_rs485.md R162). -/
theorem execR485rdpos_outcome (hx : execR485rdpos h s = .next t) : OpOutcome i s t := by
  refine onHandle_outcome hx fun sl a => ?_
  have hlen : (positionRequest a).length ≤ 8 := (rs485Request_length ..).le
  obtain ⟨c, ⟨x, hmem, hs⟩ | hs⟩ := sendOn_cases sl.binding.transport (.transmit (positionRequest a) s.params.tTx) s
  · simp only [hs]
    exact .completed (.oneCall c)
      (withPos_fits (fun _ => rfl) (withFrame_fits hlen (transportRecord_fits nofun hmem)))
  · simp only [hs]
    obtain ⟨c', ⟨x, hmem, hr⟩ | ⟨bytes, hr⟩⟩ :=
      receiveOn_cases sl.binding.transport 9 (takeDraw c s)
    · simp only [hr]
      exact .completed (.twoCalls c c')
        (withPos_fits (fun _ => rfl) (withFrame_fits hlen (transportRecord_fits nofun hmem)))
    · simp only [hr]
      exact .completed (.twoCalls c c')
        (withFrame_fits hlen (positionRecord_fits _ (rs485Position_ne_none bytes a)))

/-- The asynchronous read stops with a fault, or makes one call and may set BUSY[h] (41_rs485.md R163). -/
theorem execR485rdposa_cases (hx : execR485rdposa h s = .next t) :
    (∃ f, t = raiseFault f s) ∨
      ∃ sl a c r, slotAt s h = some sl ∧ sl.binding.kind = .rs485 ∧ sl.addr = some a ∧
        r.Fits s.params.xstat ∧
        (t = respond r (takeDraw c s) ∨ t = respond r (setBusyOf h true (takeDraw c s))) := by
  obtain ⟨e, he, rfl⟩ | ⟨sl, a, hp, ha, rfl⟩ := onHandle_cases hx
  · obtain ⟨f, rfl⟩ | ⟨hin, -⟩ := precheckAddr_error_cases he
    · exact .inl ⟨f, rfl⟩
    · cases hin
  · obtain ⟨hsl, -, -, hkind, -⟩ := precheck_ok_iff.1 hp
    have hlen : (positionRequest a).length ≤ 8 := (rs485Request_length ..).le
    obtain ⟨c, ⟨x, hmem, hs⟩ | hs⟩ := sendOn_cases sl.binding.transport (.transmitAsync (positionRequest a)) s
    · simp only [hs]
      exact .inr ⟨sl, a, c, _, hsl, hkind _ rfl, ha,
        withFrame_fits hlen (transportRecord_fits (q := .txFail) nofun hmem), .inl rfl⟩
    · simp only [hs]
      exact .inr ⟨sl, a, c, _, hsl, hkind _ rfl, ha, withFrame_fits hlen (okRecord_fits _), .inr rfl⟩

/-- The delivery of an RS485 response stops, or clears BUSY[h]; the host issued it (41_rs485.md R164). -/
theorem execR485rxcb_cases (hx : execR485rxcb h s = .next t) :
    (∃ f, t = raiseFault f s) ∨ t = refuseWith .inCap s ∨
      ∃ r, r.Fits s.params.xstat ∧ s.agent = .host ∧ t = respond r (setBusyOf h false s) := by
  obtain ⟨e, he, rfl⟩ | ⟨sl, a, hp, -, rfl⟩ := onHandle_cases hx
  · obtain ⟨f, rfl⟩ | ⟨-, rfl⟩ := precheckAddr_error_cases he
    · exact .inl ⟨f, rfl⟩
    · exact .inr (.inl rfl)
  · obtain ⟨-, hhost, -⟩ := precheck_ok_iff.1 hp
    exact .inr (.inr ⟨_, positionRecord_fits _ (rs485Position_ne_none _ a), hhost rfl, rfl⟩)

/-- SETADDR stops with a fault, or writes a nonzero ADDR[h] (43_config.md R223). -/
theorem execSetaddr_cases {a : Byte} (hx : execSetaddr a h s = .next t) :
    (∃ f, t = raiseFault f s) ∨ a ≠ 0#8 ∧ t = respond okRecord (setAddrOf h a s) := by
  unfold execSetaddr at hx
  cases hp : precheck { idle := true } h s with
  | error e =>
    simp only [hp] at hx; cases hx
    obtain ⟨f, rfl⟩ | ⟨hin, -⟩ := precheck_error_cases hp
    · exact .inl ⟨f, rfl⟩
    · cases hin
  | ok sl =>
    simp only [hp] at hx
    split_ifs at hx with ha
    · cases hx; exact .inl ⟨_, rfl⟩
    · cases hx; exact .inr ⟨ha, rfl⟩

theorem execCrc16_outcome (hx : execCrc16 s = .next t) : OpOutcome i s t := by
  unfold execCrc16 at hx
  split_ifs at hx
  · cases hx; exact .refusedInCap i s
  · cases hx; exact .completed .none (crcRecord_fits _ _)

theorem execR485enc_outcome {fn : Byte} {reg val : Half} (hx : execR485enc fn reg val h s = .next t) :
    OpOutcome i s t := by
  refine onHandle_outcome hx fun _ a => ?_
  cases funcOfCode fn with
  | none => exact .completed .none (withFrame_fits (Nat.zero_le 8) (rejectRecord_fits _ nofun nofun nofun))
  | some k => exact .completed .none (withFrame_fits (rs485Request_length ..).le (okRecord_fits _))

theorem execR485chk_outcome {fn : Byte} {reg val : Half} (hx : execR485chk fn reg val h s = .next t) :
    OpOutcome i s t := by
  refine onHandle_outcome hx fun _ a => ?_
  match funcOfCode fn with
  | none => exact .completed .none (rejectRecord_fits _ nofun nofun nofun)
  | some .writeMulti => exact .stopped (.inr (.inl rfl))
  | some .read => exact .completed .none (validationRecord_fits _ (validateRead_ne_none _ a))
  | some .writeSingle => exact .completed .none (validationRecord_fits _ (validateAck_ne_none _ a reg val))

theorem execCanenc_outcome {cmd len : Byte} {sel : Half} (hx : execCanenc cmd len sel h s = .next t) :
    OpOutcome i s t := by
  refine onHandle_outcome hx fun _ a => ?_
  obtain ⟨q, hq, hf⟩ | ⟨f, hlen, hf⟩ := canRequest_cases s.params.canCodes a cmd len sel
  · simp only [hf]
    exact .completed .none (withFrame_fits (Nat.zero_le 8) (rejectRecord_fits _ nofun nofun hq))
  · simp only [hf]
    exact .completed .none (withCanLabel_fits a (withFrame_fits hlen (okRecord_fits _)))

/-- An operation that only extracts a position from IN writes no handle (41_rs485.md R160, 42_can.md R194, R196). -/
theorem position_outcome {n : Needs} {extract : List Byte → Byte → Except Reason Position}
    (hne : ∀ f a, extract f a ≠ .error .none)
    (hx : (onHandle n h s fun _ a => respond (positionRecord (extract s.inPort a)) s) = .next t) :
    OpOutcome i s t :=
  onHandle_outcome hx fun _ a => .completed .none (positionRecord_fits _ (hne s.inPort a))

end Shapes

/-- R485WR and its spellings perform the register write that the operation map gives (43_config.md R221). -/
theorem exec_of_registerWrite? {i : Instr} {reg val : Half} {h : Byte}
    (hi : registerWrite? i = some (reg, val, h)) (s : State) : exec i s = writeRoundTrip reg val h s := by
  cases i <;> cases hi <;> rfl

/-- CANSEND and its spellings send the request that the operation map gives (43_config.md R222). -/
theorem exec_of_canRequest? {i : Instr} {cmd len : Byte} {sel : Half} {h : Byte}
    (hi : canRequest? i = some (cmd, len, sel, h)) (s : State) : exec i s = sendRequest cmd len sel h s := by
  cases i <;> cases hi <;> rfl

/-- Everything an operation can do. -/
theorem exec_outcome {i : Instr} {s t : State} (hx : exec i s = .next t) : OpOutcome i s t := by
  cases i with
  | crc16 => exact execCrc16_outcome hx
  | r485enc fn reg val h => exact execR485enc_outcome hx
  | r485chk fn reg val h => exact execR485chk_outcome hx
  | r485pos h => exact position_outcome rs485Position_ne_none hx
  | r485rdpos h => exact execR485rdpos_outcome hx
  | r485rdposa h =>
    obtain ⟨f, rfl⟩ | ⟨sl, a, c, r, hsl, hkind, ha, hr, rfl | rfl⟩ := execR485rdposa_cases hx
    · exact .fault _ s f
    · exact .completed (.oneCall c) hr
    · exact .completed (.setBusy c rfl hsl hkind ha) hr
  | r485rxcb h =>
    obtain ⟨f, rfl⟩ | rfl | ⟨r, hr, hagent, rfl⟩ := execR485rxcb_cases hx
    · exact .fault _ s f
    · exact .refusedInCap _ s
    · exact .completed (.clearBusy rfl hagent) hr
  | canenc cmd len sel h => exact execCanenc_outcome hx
  | candec h | canrxcb h => exact position_outcome canReport_ne_none hx
  | setaddr a h =>
    obtain ⟨f, rfl⟩ | ⟨ha, rfl⟩ := execSetaddr_cases hx
    · exact .fault _ s f
    · exact .completed (.setAddr rfl ha) (okRecord_fits _)
  | r485wr | set485addr | set485baud | set485mode | set485ret | set485zero | set485dir =>
    exact writeRoundTrip_outcome ((exec_of_registerWrite? rfl s).symm.trans hx)
  | cansend | canget | cansetid | cansetbaud | cansetmode | cansetret | cansetzero =>
    exact sendRequest_outcome ((exec_of_canRequest? rfl s).symm.trans hx)

/-- Settles O48, from the three operations' own case lemmas. -/
theorem handleWritersChangeOnlyTheirField : Obligations.HandleWritersChangeOnlyTheirField := by
  refine fun h a s t => ⟨fun hx => ?_, fun hx => ?_, fun hx => ?_⟩
  · obtain ⟨f, rfl⟩ | ⟨sl, a, c, r, -, -, -, -, rfl | rfl⟩ := execR485rdposa_cases hx
    · exact .inl ⟨f, rfl⟩
    · exact .inr ⟨r, c, _, .inl rfl, by rw [List.drop_one]; rfl⟩
    · exact .inr ⟨r, c, _, .inr rfl, by rw [List.drop_one]; rfl⟩
  · obtain ⟨f, rfl⟩ | rfl | ⟨r, -, -, rfl⟩ := execR485rxcb_cases hx
    · exact .inl ⟨f, rfl⟩
    · exact .inr (.inl ⟨_, rfl⟩)
    · exact .inr (.inr ⟨r, rfl⟩)
  · obtain ⟨f, rfl⟩ | ⟨-, rfl⟩ := execSetaddr_cases hx
    · exact .inl ⟨f, rfl⟩
    · exact .inr ⟨_, rfl⟩

/-! ### The slots after each update -/

@[simp] theorem slotAt_respond (r : Response) (s : State) (h : Byte) : slotAt (respond r s) h = slotAt s h := rfl
@[simp] theorem slotAt_takeDraw (c : HostCall) (s : State) (h : Byte) : slotAt (takeDraw c s) h = slotAt s h := rfl
@[simp] theorem slotAt_issue (r : Request) (s : State) (h : Byte) : slotAt (issue r s) h = slotAt s h := rfl
@[simp] theorem slotAt_retire (s : State) (h : Byte) : slotAt (retire s) h = slotAt s h := rfl
@[simp] theorem slotAt_dropEvent (s : State) (h : Byte) : slotAt (dropEvent s) h = slotAt s h := rfl

@[simp] theorem stop_slots (e : Stop) (s : State) : (stop e s).slots = s.slots := by cases e <;> rfl
@[simp] theorem stop_params (e : Stop) (s : State) : (stop e s).params = s.params := by cases e <;> rfl
@[simp] theorem slotAt_stop (e : Stop) (s : State) (h : Byte) : slotAt (stop e s) h = slotAt s h := by
  cases e <;> rfl

theorem slotAt_setAddrOf (k a : Byte) (s : State) (h : Byte) :
    slotAt (setAddrOf k a s) h = (slotAt s h).map fun sl => if k = h then { sl with addr := some a } else sl := by
  simp [slotAt, List.getElem?_modify, BitVec.toNat_inj]

theorem slotAt_setBusyOf (k : Byte) (b : Bool) (s : State) (h : Byte) :
    slotAt (setBusyOf k b s) h = (slotAt s h).map fun sl => if k = h then { sl with busy := b } else sl := by
  simp [slotAt, List.getElem?_modify, BitVec.toNat_inj]

/-- A field that an update of one slot leaves alone is left alone in every slot. -/
theorem map_modify_eq_map {α β : Type} {g : α → β} {f : α → α} (hf : ∀ x, g (f x) = g x) (l : List α) (k : Nat) :
    (l.modify k f).map g = l.map g := by
  apply List.ext_getElem?
  intro j
  simp only [List.getElem?_map, List.getElem?_modify]
  cases l[j]? with
  | none => rfl
  | some x => by_cases hk : k = j <;> simp [hk, hf]

/-! ### What a completing operation leaves unchanged -/

namespace Effect
variable {i : Instr} {s u : State}

theorem params_eq (hu : Effect i s u) : u.params = s.params := by cases hu <;> rfl
theorem faultMark_eq (hu : Effect i s u) : u.faultMark = s.faultMark := by cases hu <;> rfl
theorem refusedMark_eq (hu : Effect i s u) : u.refusedMark = s.refusedMark := by cases hu <;> rfl

/-- No operation writes KIND or TRANSPORT (10_state.md R35). -/
theorem bindings_eq (hu : Effect i s u) : u.slots.map Slot.binding = s.slots.map Slot.binding := by
  cases hu with
  | none | oneCall | twoCalls => rfl
  | setBusy | clearBusy | setAddr => exact map_modify_eq_map (fun _ => by rfl) _ _

/-- ADDR[h] is kept, or the operation is a SETADDR on h with a nonzero address (10_state.md R34). -/
theorem addr_cases (hu : Effect i s u) (h : Byte) :
    (slotAt u h).map Slot.addr = (slotAt s h).map Slot.addr ∨ ∃ a, i = .setaddr a h ∧ a ≠ 0#8 := by
  cases hu with
  | none | oneCall | twoCalls => exact .inl rfl
  | setBusy | clearBusy =>
    rw [slotAt_setBusyOf, Option.map_map]
    exact .inl (congrArg (Option.map · _) (funext fun sl => by simp only [Function.comp]; split_ifs <;> rfl))
  | @setAddr a k hi ha =>
    by_cases hk : k = h
    · exact .inr ⟨a, hk ▸ hi, ha⟩
    · simp [slotAt_setAddrOf, hk]

/-- BUSY[h] is kept, or set by R485RDPOSA on h, or cleared by the host's R485RXCB on h (10_state.md R36). -/
theorem busy_cases (hu : Effect i s u) (h : Byte) :
    (slotAt u h).map Slot.busy = (slotAt s h).map Slot.busy ∨
    (i = .r485rdposa h ∧ (slotAt u h).map Slot.busy = (slotAt s h).map fun _ => true) ∨
    (i = .r485rxcb h ∧ s.agent = .host ∧ (slotAt u h).map Slot.busy = (slotAt s h).map fun _ => false) := by
  cases hu with
  | none | oneCall | twoCalls => exact .inl rfl
  | @setBusy k _ _ c hi =>
    by_cases hk : k = h
    · exact .inr (.inl ⟨hk ▸ hi, by simp [slotAt_setBusyOf, hk, Function.comp_def]⟩)
    · simp [slotAt_setBusyOf, hk]
  | @clearBusy k hi hagent =>
    by_cases hk : k = h
    · exact .inr (.inr ⟨hk ▸ hi, hagent, by simp [slotAt_setBusyOf, hk, Function.comp_def]⟩)
    · simp [slotAt_setBusyOf, hk]
  | @setAddr a k hi ha =>
    rw [slotAt_setAddrOf, Option.map_map]
    exact .inl (congrArg (Option.map · _) (funext fun sl => by simp only [Function.comp]; split_ifs <;> rfl))

end Effect

/-! ### What a step does, said once -/

/-- The four kinds of step: the block waits, resets, stops an operation with a mark of the spec, or completes a decoded operation (20_memory.md R69, R70, R72). -/
inductive StepOutcome (s : State) : State → Prop
  | waits (hp : s.pending = []) : StepOutcome s s
  | resets {rest : List Event} (hp : s.pending = .reset :: rest) : StepOutcome s (resetBlock (dropEvent s))
  | stops {r : Request} {rest : List Event} {e : Stop} (hp : s.pending = .op r :: rest) (he : e.OfSpec) :
      StepOutcome s (retire (stop e (issue r (dropEvent s))))
  | completes {r : Request} {rest : List Event} {i : Instr} {u : State} {rec : Response}
      (hp : s.pending = .op r :: rest) (hd : decode r.word = .ok i) (hu : Effect i (issue r (dropEvent s)) u)
      (hr : rec.Fits s.params.xstat) : StepOutcome s (retire (respond rec u))

/-- Everything a step can do. -/
theorem step_outcome {s t : State} (hx : step s = .next t) : StepOutcome s t := by
  unfold step at hx
  match hp : s.pending with
  | [] => simp only [hp] at hx; cases hx; exact .waits hp
  | .reset :: rest => simp only [hp, performEvent] at hx; cases hx; exact .resets hp
  | .op r :: rest =>
    simp only [hp, performEvent, runWord] at hx
    cases hd : decode r.word with
    | error e => simp only [hd] at hx; cases hx; exact .stops hp (.inl ⟨.illegalOp, rfl⟩)
    | ok i =>
      simp only [hd] at hx
      cases he : exec i (issue r (dropEvent s)) with
      | next v =>
        rw [he] at hx; cases hx
        cases exec_outcome he with
        | stopped hs => exact .stops hp hs
        | completed hu hr => exact .completes hp hd hu hr
      | fault f => rw [he] at hx; cases hx
      | refused q => rw [he] at hx; cases hx

/-- Settles O50: a stop sets a mark, and every other step leaves both. -/
theorem marksAreNeverCleared : Obligations.MarksAreNeverCleared := by
  intro s t hx
  cases step_outcome hx with
  | waits | resets => exact ⟨id, id⟩
  | @stops r _ e =>
    cases e with
    | fault f => exact ⟨fun _ => rfl, id⟩
    | refuse q => exact ⟨id, fun _ => rfl⟩
  | completes _ _ hu =>
    simp only [retire_faultMark, respond_faultMark, retire_refusedMark, respond_refusedMark, hu.faultMark_eq,
      hu.refusedMark_eq]
    exact ⟨id, id⟩

/-- Settles O52, from what a completing operation does to ADDR. -/
theorem onlySetaddrAndResetWriteAddr : Obligations.OnlySetaddrAndResetWriteAddr := by
  intro s t h hx
  cases step_outcome hx with
  | waits => exact .inl rfl
  | resets hp => exact .inr (.inl ⟨_, hp⟩)
  | stops => exact .inl (by simp)
  | completes hp hd hu =>
    obtain heq | ⟨a, rfl, ha⟩ := hu.addr_cases h
    · exact .inl heq
    · exact .inr (.inr ⟨_, _, a, hp, hd, ha⟩)

/-- Settles O53, from what a completing operation does to BUSY. -/
theorem onlyAsyncOperationsAndResetWriteBusy : Obligations.OnlyAsyncOperationsAndResetWriteBusy := by
  intro s t h x y hx hs ht
  cases step_outcome hx with
  | waits => cases hs.symm.trans ht; grind
  | @resets rest hp =>
    refine ⟨fun _ hy => ?_, fun _ _ => .inl ⟨rest, hp⟩⟩
    have : y.busy = false := by
      simp only [slotAt, resetBlock_slots, dropEvent_slots, List.getElem?_map] at ht hs
      rw [hs] at ht; cases ht; rfl
    simp [this] at hy
  | stops => simp only [slotAt_retire, slotAt_stop, slotAt_issue, slotAt_dropEvent, hs] at ht; cases ht; grind
  | @completes r rest i u rec hp hd hu =>
    have hbusy := hu.busy_cases h
    rw [slotAt_retire, slotAt_respond] at ht
    simp only [ht, slotAt_issue, slotAt_dropEvent, hs, Option.map_some, Option.some.injEq, issue_agent] at hbusy
    obtain heq | ⟨rfl, hset⟩ | ⟨rfl, hagent, hclear⟩ := hbusy
    · grind
    · exact ⟨fun _ _ => ⟨r, rest, hp, hd⟩, fun _ hy => by simp [hset] at hy⟩
    · exact ⟨fun _ hy => by simp [hclear] at hy, fun _ _ => .inr ⟨r, rest, hp, hd, hagent⟩⟩

/-- Settles O54: a reset keeps each slot's binding, and so does every completing operation. -/
theorem configurationIsNeverWritten : Obligations.ConfigurationIsNeverWritten := by
  intro s t hx
  cases step_outcome hx with
  | waits => exact ⟨rfl, rfl⟩
  | resets => exact ⟨rfl, by simp [Function.comp_def]⟩
  | stops => simp
  | completes _ _ hu => exact ⟨hu.params_eq, hu.bindings_eq⟩

/-! ### The invariant -/

namespace State.Inv
variable {s t : State}

/-- The invariant reads only the parameters, the slots, the record and the REFUSED mark. -/
theorem of_eq (hi : s.Inv) (hp : t.params = s.params) (hs : t.slots = s.slots) (hr : t.response = s.response)
    (hq : t.refusedMark = s.refusedMark) : t.Inv where
  handles := by simpa only [State.nh, hs] using hi.handles
  params := hp ▸ hi.params
  slots := hs ▸ hi.slots
  record := hr ▸ hi.record
  xstat := by rw [hr, hp]; exact hi.xstat
  marks := hq ▸ hi.marks

theorem issue (r : Request) (hi : s.Inv) : (issue r s).Inv := hi.of_eq rfl rfl rfl rfl
theorem retire (hi : s.Inv) : (retire s).Inv := hi.of_eq rfl rfl rfl rfl
theorem dropEvent (hi : s.Inv) : (dropEvent s).Inv := hi.of_eq rfl rfl rfl rfl
theorem takeDraw (c : HostCall) (hi : s.Inv) : (takeDraw c s).Inv := hi.of_eq rfl rfl rfl rfl

theorem stop {e : Stop} (he : e.OfSpec) (hi : s.Inv) : (stop e s).Inv := by
  obtain ⟨f, rfl⟩ | rfl | rfl := he
  · exact hi.of_eq rfl rfl rfl rfl
  · exact { hi with marks := .inr (.inl rfl) }
  · exact { hi with marks := .inr (.inr rfl) }

theorem respond {r : Response} (hr : r.Fits s.params.xstat) (hi : s.Inv) : (respond r s).Inv :=
  { hi with
    record := by rintro _ ⟨⟩; exact hr.form
    xstat := by rintro _ x ⟨⟩ hx; exact hr.xstat_mem x hx }

/-- A reset leaves every slot idle and UNSET, and no record. -/
theorem resetBlock (hi : s.Inv) : (resetBlock s).Inv where
  handles := by simpa [State.nh] using hi.handles
  params := hi.params
  slots := by
    intro sl hsl
    obtain ⟨x, -, rfl⟩ := List.mem_map.1 hsl
    exact ⟨nofun, nofun⟩
  record := by rintro r ⟨⟩
  xstat := by rintro r x ⟨⟩
  marks := hi.marks

/-- An update of one slot keeps the invariant when the slot it writes has its form. -/
theorem modifySlot {h : Byte} {f : Slot → Slot} (hf : ∀ sl, slotAt s h = some sl → sl.Ok → (f sl).Ok)
    (hi : s.Inv) : { s with slots := s.slots.modify h.toNat f : State }.Inv :=
  { hi with
    handles := by simpa [State.nh] using hi.handles
    slots := by
      intro sl hsl
      obtain ⟨j, hj⟩ := List.mem_iff_getElem?.1 hsl
      rw [List.getElem?_modify] at hj
      obtain ⟨x, hx, hfx⟩ := Option.map_eq_some_iff.1 hj
      have hok : x.Ok := hi.slots x (List.mem_of_getElem? hx)
      split_ifs at hfx with hk
      · subst hk; exact hfx ▸ hf x hx hok
      · exact hfx ▸ hok }

/-- BUSY is set on an RS485 handle with an address only, and the address written is not 0x00. -/
theorem effect {i : Instr} (hu : Effect i s t) (hi : s.Inv) : t.Inv := by
  cases hu with
  | none => exact hi
  | oneCall c => exact hi.takeDraw c
  | twoCalls c c' => exact (hi.takeDraw c).takeDraw c'
  | setBusy c _ hsl hkind haddr =>
    refine (hi.takeDraw c).modifySlot fun sl hsl' hok => ?_
    cases hsl.symm.trans hsl'
    exact ⟨hok.1, fun _ => ⟨hkind, by rw [haddr]; rfl⟩⟩
  | clearBusy => exact hi.modifySlot fun sl _ hok => ⟨hok.1, nofun⟩
  | setAddr _ ha =>
    exact hi.modifySlot fun sl _ hok => ⟨fun h => ha (Option.some.inj h), fun hb => ⟨(hok.2 hb).1, rfl⟩⟩

end State.Inv

/-- Settles O55: each kind of step keeps the invariant. -/
theorem everyStepKeepsTheInvariant : Obligations.EveryStepKeepsTheInvariant := by
  intro s t hi hx
  cases step_outcome hx with
  | waits => exact hi
  | resets => exact hi.dropEvent.resetBlock
  | @stops r _ _ _ he => exact ((hi.dropEvent.issue r).stop he).retire
  | @completes r _ i u rec _ _ hu hr =>
    have hu' : u.Inv := (hi.dropEvent.issue r).effect hu
    have hr' : rec.Fits u.params.xstat := hu.params_eq ▸ hr
    exact (hu'.respond hr').retire

/-- The command codes that reset carries meet R107. -/
theorem canCodes_distinct : Config.canCodes.Distinct = true := by
  unfold Config.canCodes
  split_ifs with hd
  · exact hd
  · decide

theorem everyByte_rising : Config.everyByte.Pairwise fun x y => x.toNat < y.toNat := by
  refine List.pairwise_map.2 (List.pairwise_lt_range.imp_of_mem fun ha hb hlt => ?_)
  simp only [BitVec.toNat_ofNat, List.mem_range] at *
  omega

/-- Settles O56: the handles are fresh, and the parameters of reset are admitted. -/
theorem resetMeetsTheInvariant : Obligations.ResetMeetsTheInvariant where
  handles := ⟨by decide, by decide⟩
  params := by
    have hcap : Config.minInCap ≤ Config.resetParams.inCap := by decide
    have hcodes : Config.resetParams.canCodes.Distinct = true := canCodes_distinct
    have hstat : Config.resetParams.xstat.Pairwise fun x y => x.toNat < y.toNat := everyByte_rising
    simp only [State.reset, Params.Valid, hcap, hcodes, hstat, decide_true, Bool.and_self]
  slots := by
    intro sl hsl
    obtain ⟨b, -, rfl⟩ := List.mem_map.1 hsl
    exact ⟨nofun, nofun⟩
  record := by rintro r ⟨⟩
  xstat := by rintro r x ⟨⟩
  marks := .inl rfl

/-! ### Codec operations read a slot for its ADDR only -/

/-- The state with other slots. -/
def State.withSlots (l : List Slot) (s : State) : State := { s with slots := l }

theorem stop_withSlots (e : Stop) (l : List Slot) (s : State) : stop e (s.withSlots l) = (stop e s).withSlots l := by
  cases e <;> rfl

/-- What the common checks and the read of ADDR[h] tell a body that looks at no other field of the slot. -/
def addrOrStop (n : Needs) (h : Byte) (s : State) : Except Stop Byte := (precheckAddr n h s).map Prod.snd

theorem onHandle_of_addrOrStop_error {n : Needs} {h : Byte} {s : State} {e : Stop} (he : addrOrStop n h s = .error e)
    (body : Byte → State) : (onHandle n h s fun _ a => body a) = .next (stop e s) := by
  unfold addrOrStop at he
  cases hp : precheckAddr n h s with
  | error e' => rw [hp] at he; cases he; simp only [onHandle, hp]
  | ok x => rw [hp] at he; cases he

theorem onHandle_of_addrOrStop_ok {n : Needs} {h : Byte} {s : State} {a : Byte} (ha : addrOrStop n h s = .ok a)
    (body : Byte → State) : (onHandle n h s fun _ a => body a) = .next (body a) := by
  unfold addrOrStop at ha
  cases hp : precheckAddr n h s with
  | error e => rw [hp] at ha; cases ha
  | ok x => rw [hp] at ha; cases ha; simp only [onHandle, hp]

/-- Without a transport or a busy check, slots that agree on ADDR give the same address or the same stop. -/
theorem addrOrStop_withSlots {n : Needs} (hk : n.kind = none) (hidle : n.idle = false) (h : Byte) {s : State}
    {l : List Slot} (hl : l.map Slot.addr = s.slots.map Slot.addr) :
    addrOrStop n h (s.withSlots l) = addrOrStop n h s := by
  have hslot : (l[h.toNat]?).map Slot.addr = (s.slots[h.toNat]?).map Slot.addr := by
    rw [← List.getElem?_map, ← List.getElem?_map, hl]
  unfold addrOrStop precheckAddr precheck slotAt State.withSlots
  simp only [hk, hidle, Option.any_none, Bool.false_and, Bool.false_eq_true, if_false]
  cases hx : s.slots[h.toNat]? with
  | none =>
    rw [hx, Option.map_none, Option.map_eq_none_iff] at hslot
    simp only [hslot]
  | some x =>
    rw [hx, Option.map_some] at hslot
    obtain ⟨y, hy, hxy⟩ := Option.map_eq_some_iff.1 hslot
    simp only [hy]
    split_ifs
    · rfl
    · rfl
    · simp only [hxy]; cases x.addr <;> rfl

/-- A codec operation makes no transport and no busy check (10_state.md R35, R36). -/
theorem needsOf_codec {i : Instr} (hc : isCodec i = true) : (needsOf i).kind = none ∧ (needsOf i).idle = false := by
  cases i <;> cases hc <;> exact ⟨rfl, rfl⟩

/-- The body of a codec operation on a handle takes ADDR[h], and neither reads nor writes the slots. -/
theorem exec_codec {i : Instr} {h : Byte} (hc : isCodec i = true) (hi : i.handle? = some h) :
    ∃ body : Byte → State → State,
      (∀ s, exec i s = onHandle (needsOf i) h s fun _ a => body a s) ∧
      ∀ a s l, (body a s).slots = s.slots ∧ body a (s.withSlots l) = (body a s).withSlots l := by
  cases i <;> cases hc <;> cases hi
  case r485enc fn reg val =>
    refine ⟨_, fun _ => rfl, fun a s l => ?_⟩
    cases funcOfCode fn <;> exact ⟨rfl, rfl⟩
  case r485chk fn reg val =>
    refine ⟨_, fun _ => rfl, fun a s l => ?_⟩
    rcases funcOfCode fn with _ | _ | _ | _ <;> exact ⟨rfl, rfl⟩
  case canenc cmd len sel =>
    refine ⟨_, fun _ => rfl, fun a s l => ?_⟩
    rw [show (s.withSlots l).params = s.params from rfl]
    cases canRequest s.params.canCodes a cmd len sel <;> exact ⟨rfl, rfl⟩
  case r485pos | candec => exact ⟨_, fun _ => rfl, fun a s l => ⟨rfl, rfl⟩⟩

/-- CRC16 neither reads nor writes the slots (40_crc.md R130). -/
theorem exec_crc16_withSlots (s : State) (l : List Slot) :
    ∃ t, exec .crc16 s = .next t ∧ t.slots = s.slots ∧ exec .crc16 (s.withSlots l) = .next (t.withSlots l) := by
  by_cases hin : s.params.inCap < s.inPort.length
  · exact ⟨refuseWith .inCap s, if_pos hin, rfl, if_pos hin⟩
  · exact ⟨respond { okRecord with crc := some (crc16 s.inPort) } s, if_neg hin, rfl, if_neg hin⟩

/-- A codec operation does the same on slots that agree on ADDR, and leaves the slots as they are. -/
theorem exec_codec_withSlots {i : Instr} (hc : isCodec i = true) {s : State} {l : List Slot}
    (hl : l.map Slot.addr = s.slots.map Slot.addr) :
    ∃ t, exec i s = .next t ∧ t.slots = s.slots ∧ exec i (s.withSlots l) = .next (t.withSlots l) := by
  cases hi : i.handle? with
  | none =>
    obtain rfl : i = .crc16 := by cases i <;> cases hi; rfl
    exact exec_crc16_withSlots s l
  | some h =>
    obtain ⟨body, hbody, hslots⟩ := exec_codec hc hi
    obtain ⟨hkind, hidle⟩ := needsOf_codec hc
    have hsame := addrOrStop_withSlots hkind hidle h hl
    rw [hbody, hbody]
    cases ho : addrOrStop (needsOf i) h s with
    | error e =>
      refine ⟨stop e s, onHandle_of_addrOrStop_error ho _, stop_slots e s, ?_⟩
      rw [onHandle_of_addrOrStop_error (hsame.trans ho), stop_withSlots]
    | ok a =>
      obtain ⟨hkeep, hbodyl⟩ := hslots a s l
      refine ⟨body a s, onHandle_of_addrOrStop_ok ho fun a => body a s, hkeep, ?_⟩
      rw [onHandle_of_addrOrStop_ok (hsame.trans ho) fun a => body a (s.withSlots l), hbodyl]

/-- Settles O58: a slot with another binding and another BUSY has the same ADDR. -/
theorem codecOperationsIgnoreBindingAndBusy : Obligations.CodecOperationsIgnoreBindingAndBusy := by
  intro i h x b z s hc hx
  have hl : (s.slots.set h.toNat { x with binding := b, busy := z }).map Slot.addr = s.slots.map Slot.addr := by
    obtain ⟨hlt, rfl⟩ := List.getElem?_eq_some_iff.1 hx
    apply List.ext_getElem
    · simp
    · intro j hj hj'
      simp only [List.getElem_map, List.getElem_set]
      split_ifs with hk
      · simp only [hk]
      · rfl
  obtain ⟨t, ht, hslots, ht'⟩ := exec_codec_withSlots hc hl
  exact ⟨t, ht, hslots ▸ ht'⟩

end Sys2Proof.Machine
end

section
namespace Sys2Proof.Machine

/-! ## Proofs of the memory family
What a step does with a request, in equations for `step` and `runWord`. -/

/-- A step on a request runs its word on the sampled operands and retires (20_memory.md R69, R70). -/
theorem step_of_op {s : State} {r : Request} {rest : List Event} (hp : s.pending = .op r :: rest) :
    step s = retireAnswer (runWord r.word { s with pending := rest, agent := r.agent, inPort := r.input }) := by
  simp only [step, hp, performEvent, issue, dropEvent, List.tail_cons]

/-- A word that decodes runs as the operation it names (30_encoding.md R94). -/
theorem runWord_of_decode_ok {w : OpWord} {i : Instr} (hd : decode w = .ok i) (s : State) :
    runWord w s = exec i s := by
  simp only [runWord, hd]

/-- Settles O2: a request's step runs its word, and a word that decodes runs as its operation. -/
theorem stepPerformsTheDecodedOperation : Obligations.StepPerformsTheDecodedOperation := by
  intro s r rest i hp hd
  constructor
  · rw [step_of_op hp, runWord_of_decode_ok hd]
  · intro t
    rw [retireAnswer_next, retire]

end Sys2Proof.Machine
end

section
/-! ## Proofs of the encoding family: the decoder
The opcode table's rows, the two directions of the round trip, and the legal words. -/

namespace Sys2Proof

/-! ### What the decoder reads -/

/-- The laws of the single operations, for all of them. -/
theorem fieldsDecode : ∀ i : Instr, Laws.FieldsDecode.Statement i
  | .crc16 => Laws.FieldsDecode.crc16
  | .r485enc fn reg val h => Laws.FieldsDecode.r485enc fn reg val h
  | .r485chk fn reg val h => Laws.FieldsDecode.r485chk fn reg val h
  | .r485pos h => Laws.FieldsDecode.r485pos h
  | .r485wr reg val h => Laws.FieldsDecode.r485wr reg val h
  | .r485rdpos h => Laws.FieldsDecode.r485rdpos h
  | .r485rdposa h => Laws.FieldsDecode.r485rdposa h
  | .r485rxcb h => Laws.FieldsDecode.r485rxcb h
  | .canenc cmd len sel h => Laws.FieldsDecode.canenc cmd len sel h
  | .candec h => Laws.FieldsDecode.candec h
  | .cansend cmd len sel h => Laws.FieldsDecode.cansend cmd len sel h
  | .canrxcb h => Laws.FieldsDecode.canrxcb h
  | .setaddr a h => Laws.FieldsDecode.setaddr a h
  | .set485addr v h => Laws.FieldsDecode.set485addr v h
  | .set485baud v h => Laws.FieldsDecode.set485baud v h
  | .set485mode v h => Laws.FieldsDecode.set485mode v h
  | .set485ret v h => Laws.FieldsDecode.set485ret v h
  | .set485zero v h => Laws.FieldsDecode.set485zero v h
  | .set485dir v h => Laws.FieldsDecode.set485dir v h
  | .canget h => Laws.FieldsDecode.canget h
  | .cansetid v h => Laws.FieldsDecode.cansetid v h
  | .cansetbaud v h => Laws.FieldsDecode.cansetbaud v h
  | .cansetmode v h => Laws.FieldsDecode.cansetmode v h
  | .cansetret v h => Laws.FieldsDecode.cansetret v h
  | .cansetzero v h => Laws.FieldsDecode.cansetzero v h

/-- An operation's word decodes to the decoder's spelling of it. -/
theorem decode_encode (i : Instr) : decode (encode i) = .ok (respell i) := by
  rw [decode, encode, fieldsOfWord_wordOfFields, fieldsDecode i]

/-- Conditions 1 and 2 of 30_encoding.md R94: the fields name an operation when OP is its code and the fields it does not use are zero. -/
theorem decodeFields_eq_ok_iff {f : Fields} {i : Instr} :
    decodeFields f = .ok i ↔
      ∃ o, opcodeCode o = f.op ∧ unusedFieldsZero o f = true ∧ instrOfFields o f = i := by
  unfold decodeFields
  constructor
  · intro hd
    cases ho : opcodeOfCode f.op with
    | none => simp [ho] at hd
    | some o =>
      simp only [ho] at hd
      split_ifs at hd with hu
      exact ⟨o, opcodeCode_of_opcodeOfCode ho, hu, Except.ok.inj hd⟩
  · rintro ⟨o, ho, hu, rfl⟩
    simp [← ho, hu]

theorem unusedFieldsZero_iff {o : Opcode} {f : Fields} :
    unusedFieldsZero o f = true ↔
      ((fieldUse o).a = true ∨ f.a = 0#8) ∧ ((fieldUse o).b = true ∨ f.b = 0#8) ∧
      ((fieldUse o).c = true ∨ f.c = 0#16) ∧ ((fieldUse o).d = true ∨ f.d = 0#16) ∧
      ((fieldUse o).h = true ∨ f.h = 0#8) := by
  simp [unusedFieldsZero, and_assoc]

/-! ### The decoder's spelling of a configuration word (43_config.md R221, R222, log 14) -/

theorem spellR485wr_of_not_config {reg : Half} (hr : hasConfigRegister reg = false) (val : Half) (h : Byte) :
    spellR485wr reg val h = .r485wr reg val h := by
  simp only [hasConfigRegister, Bool.or_eq_false_iff, beq_eq_false_iff_ne] at hr
  simp [spellR485wr, hr]

theorem spellCansend_of_not_config {cmd len : Byte} {sel : Half} (hc : hasConfigCommand cmd len sel = false)
    (h : Byte) : spellCansend cmd len sel h = .cansend cmd len sel h := by
  unfold spellCansend
  split_ifs <;> simp_all [hasConfigCommand]

theorem respell_of_decoderSpelling {i : Instr} (hi : i.decoderSpelling = true) : respell i = i := by
  cases i with
  | r485wr reg val h => exact spellR485wr_of_not_config (by simpa [Instr.decoderSpelling] using hi) val h
  | cansend cmd len sel h => exact spellCansend_of_not_config (by simpa [Instr.decoderSpelling] using hi) h
  | _ => rfl

theorem decoderSpelling_spellR485wr (reg val : Half) (h : Byte) :
    (spellR485wr reg val h).decoderSpelling = true := by
  unfold spellR485wr
  split_ifs <;> simp [Instr.decoderSpelling, hasConfigRegister, *]

theorem decoderSpelling_spellCansend (cmd len : Byte) (sel : Half) (h : Byte) :
    (spellCansend cmd len sel h).decoderSpelling = true := by
  unfold spellCansend
  split_ifs <;> simp [Instr.decoderSpelling, hasConfigCommand, *]

theorem fieldsOf_spellR485wr (reg val : Half) (h : Byte) :
    fieldsOf (spellR485wr reg val h) = fieldsOf (.r485wr reg val h) := by
  unfold spellR485wr
  split_ifs <;> simp [fieldsOf, *]

theorem fieldsOf_spellCansend (cmd len : Byte) (sel : Half) (h : Byte) :
    fieldsOf (spellCansend cmd len sel h) = fieldsOf (.cansend cmd len sel h) := by
  unfold spellCansend
  split_ifs <;> simp [fieldsOf, *]

theorem decoderSpelling_instrOfFields (o : Opcode) (f : Fields) :
    (instrOfFields o f).decoderSpelling = true := by
  cases o with
  | r485wr => exact decoderSpelling_spellR485wr f.c f.d f.h
  | cansend => exact decoderSpelling_spellCansend f.a f.b f.c f.h
  | _ => rfl

/-- The operation built from legal fields has those fields: an unused one is zero, and a used one is an operand. -/
theorem fieldsOf_instrOfFields {o : Opcode} {f : Fields} (ho : opcodeCode o = f.op)
    (hu : unusedFieldsZero o f = true) : fieldsOf (instrOfFields o f) = f := by
  obtain ⟨op, a, b, c, d, h⟩ := f
  obtain rfl : opcodeCode o = op := ho
  rw [unusedFieldsZero_iff] at hu
  cases o with
  | r485wr => rw [instrOfFields, fieldsOf_spellR485wr]; simp_all [fieldUse, fieldsOf, opcodeCode]
  | cansend => rw [instrOfFields, fieldsOf_spellCansend]; simp_all [fieldUse, fieldsOf, opcodeCode]
  | _ => simp_all [fieldUse, instrOfFields, fieldsOf, opcodeCode]

/-- Settles O6: the decoder answers its own spelling, which a well-formed operation is. -/
theorem decodeOfEncodeIsTheOperation : Obligations.DecodeOfEncodeIsTheOperation := by
  intro nh i hwf
  obtain ⟨-, hspell⟩ := Bool.and_eq_true_iff.1 hwf
  rw [decode_encode, respell_of_decoderSpelling hspell]

/-- Settles O7: the decoded operation has the fields of the word, and the fields are the word. -/
theorem encodeOfDecodeIsTheWord : Obligations.EncodeOfDecodeIsTheWord := by
  intro w i hd
  obtain ⟨o, ho, hu, rfl⟩ := decodeFields_eq_ok_iff.1 hd
  constructor
  · rw [encode, fieldsOf_instrOfFields ho hu, wordOfFields_fieldsOfWord]
  · exact decoderSpelling_instrOfFields o _

/-! ### The rows of the opcode table -/

/-- Bitwise "and", field by field. -/
def Fields.and (f g : Fields) : Fields :=
  ⟨f.op &&& g.op, f.a &&& g.a, f.b &&& g.b, f.c &&& g.c, f.d &&& g.d, f.h &&& g.h⟩

theorem fieldsOfWord_and (w m : OpWord) : fieldsOfWord (w &&& m) = (fieldsOfWord w).and (fieldsOfWord m) := by
  simp only [fieldsOfWord, Fields.and, BitVec.extractLsb'_and]

/-- A word's masked value is told from its masked fields. -/
theorem and_wordOfFields_eq_iff {w : OpWord} {m f : Fields} :
    w &&& wordOfFields m = wordOfFields f ↔ (fieldsOfWord w).and m = f := by
  have hfields : fieldsOfWord (w &&& wordOfFields m) = (fieldsOfWord w).and m := by
    rw [fieldsOfWord_and, fieldsOfWord_wordOfFields]
  constructor
  · intro h
    rw [← hfields, h, fieldsOfWord_wordOfFields]
  · intro h
    rw [← h, ← hfields, wordOfFields_fieldsOfWord]

/-- The bits of a field that an operation fixes: none of a field it uses, all of one it does not use. -/
def fixedBits (n : Nat) (used : Bool) : BitVec n := if used then 0#n else BitVec.allOnes n

theorem and_fixedBits_eq_zero_iff {n : Nat} {used : Bool} {x : BitVec n} :
    x &&& fixedBits n used = 0#n ↔ used = true ∨ x = 0#n := by
  cases used <;> simp [fixedBits]

/-- The fields of an operation's mask: OP, and the fields that it does not use (30_encoding.md R93, R94). -/
def rowMask (o : Opcode) : Fields :=
  { op := BitVec.allOnes 8
    a := fixedBits 8 (fieldUse o).a
    b := fixedBits 8 (fieldUse o).b
    c := fixedBits 16 (fieldUse o).c
    d := fixedBits 16 (fieldUse o).d
    h := fixedBits 8 (fieldUse o).h }

/-- The fields of an operation's match: its code, and zero. -/
def rowMatch (o : Opcode) : Fields := ⟨opcodeCode o, 0#8, 0#8, 0#16, 0#16, 0#8⟩

/-- The row (match, mask) of an operation in opcode_table.json. -/
def opcodeRow (o : Opcode) : OpWord × OpWord := (wordOfFields (rowMatch o), wordOfFields (rowMask o))

/-- An operation's row says conditions 1 and 2 of 30_encoding.md R94. -/
theorem and_rowMask_eq_rowMatch_iff {o : Opcode} {f : Fields} :
    f.and (rowMask o) = rowMatch o ↔ opcodeCode o = f.op ∧ unusedFieldsZero o f = true := by
  simp only [Fields.and, rowMask, rowMatch, Fields.mk.injEq, BitVec.and_allOnes, and_fixedBits_eq_zero_iff,
    unusedFieldsZero_iff, eq_comm (a := f.op)]

theorem exists_decode_eq_ok_iff {w : OpWord} :
    (∃ i, decode w = .ok i) ↔ ∃ o, w &&& (opcodeRow o).2 = (opcodeRow o).1 := by
  simp only [decode, decodeFields_eq_ok_iff, opcodeRow, and_wordOfFields_eq_iff, and_rowMask_eq_rowMatch_iff]
  constructor
  · rintro ⟨i, o, ho, hu, -⟩
    exact ⟨o, ho, hu⟩
  · rintro ⟨o, ho, hu⟩
    exact ⟨_, o, ho, hu, rfl⟩

theorem mem_allOpcodes (o : Opcode) : o ∈ allOpcodes := by cases o <;> decide

/-- Settles O4: the thirteen rows are those of the operation map. -/
theorem legalWordsAreTheOpcodeTable : Obligations.LegalWordsAreTheOpcodeTable := by
  intro w
  rw [exists_decode_eq_ok_iff]
  change _ ↔ ∃ row ∈ allOpcodes.map opcodeRow, w &&& row.2 = row.1
  constructor
  · rintro ⟨o, ho⟩
    exact ⟨opcodeRow o, List.mem_map_of_mem (mem_allOpcodes o), ho⟩
  · rintro ⟨row, hrow, hw⟩
    obtain ⟨o, -, rfl⟩ := List.mem_map.1 hrow
    exact ⟨o, hw⟩

/-- Settles O5: each word is decoded by evaluation. -/
theorem wordsOfTheSpecDecode : Obligations.WordsOfTheSpecDecode := by
  refine ⟨?_, ?_, ?_, ?_, ?_, ?_, ?_, ?_, ?_, ?_⟩ <;> decide

end Sys2Proof
end

section
/-! ## Proofs of the encoding family: operations
The checks that come first, the two request frames, the CAN commands, and the operations that take no IN. -/

namespace Sys2Proof.Machine

/-! ### The first two common checks -/

/-- Step 1 of 60_exceptions.md R245: conditions 3 and 4 of 30_encoding.md R94. -/
theorem precheck_illegalOp {n : Needs} {h : Byte} {s : State}
    (hs : s.nh ≤ h.toNat ∨ n.hostOnly = true ∧ s.agent = .client) :
    precheck n h s = .error (.fault .illegalOp) := by
  unfold precheck
  cases hsl : slotAt s h with
  | none => rfl
  | some sl =>
    have hlt : h.toNat < s.nh := (List.getElem?_eq_some_iff.1 hsl).1
    obtain hle | ⟨hhost, hagent⟩ := hs
    · exact absurd hlt hle.not_gt
    · simp [hhost, hagent]

/-- Step 2 of 60_exceptions.md R245 refuses a long input, whatever KIND, BUSY and ADDR are. -/
theorem precheck_inCap {n : Needs} {h : Byte} {s : State} (hlt : h.toNat < s.nh)
    (hhost : n.hostOnly = true → s.agent = .host) (hin : n.input = true) (hlong : ¬ InputFits s) :
    precheck n h s = .error (.refuse .inCap) := by
  obtain ⟨sl, hsl⟩ : ∃ sl, slotAt s h = some sl := ⟨_, List.getElem?_eq_getElem hlt⟩
  have h1 : ¬ (n.hostOnly && s.agent != .host) = true := by simpa using hhost
  have h2 : (n.input && decide (s.params.inCap < s.inPort.length)) = true := by simpa [InputFits, hin] using hlong
  simp only [precheck, hsl]
  rw [if_neg h1, if_pos h2]

theorem eq_crc16_of_handle?_eq_none {i : Instr} (hi : i.handle? = none) : i = .crc16 := by
  cases i <;> cases hi
  rfl

theorem exec_crc16_of_not_inputFits {s : State} (hlong : ¬ InputFits s) :
    exec .crc16 s = .next (refuseWith .inCap s) :=
  if_pos (Nat.lt_of_not_le hlong)

/-- Settles O15: the first of the common checks fails. -/
theorem handleRangeAndHostOnlyAreChecked : Obligations.HandleRangeAndHostOnlyAreChecked :=
  fun _ _ _ hi hs => exec_of_precheck_error hi (precheck_illegalOp hs)

/-- Settles O16: CRC16 and the operations on a handle each check the length. -/
theorem longInputIsRefused : Obligations.LongInputIsRefused := by
  intro i s hin hlt hhost hlong
  cases hi : i.handle? with
  | none =>
    obtain rfl := eq_crc16_of_handle?_eq_none hi
    exact exec_crc16_of_not_inputFits hlong
  | some h => exact exec_of_precheck_error hi (precheck_inCap (hlt h hi) hhost hin hlong)

/-! ### The request frames -/

section Configured
variable {s : State} {h : Byte} {sl : Slot} {a : Byte}

/-- An encoder asks for the handle and its address only. -/
theorem onHandle_of_configured (hc : Configured s h sl a) (body : Slot → Byte → State) :
    onHandle {} h s body = .next (body sl a) :=
  onHandle_of_ok (precheck_ok_iff.2 ⟨hc.1, nofun, nofun, nofun, nofun⟩) hc.2

theorem funcOfCode_funcCode (k : Func) : funcOfCode (funcCode k) = some k := by cases k <;> rfl

theorem exec_r485enc_funcCode (hc : Configured s h sl a) (k : Func) (reg val : Half) :
    exec (.r485enc (funcCode k) reg val h) s =
      .next (respond (withFrame (rs485Request a (funcCode k) reg val) okRecord) s) := by
  simp only [exec, execR485enc, onHandle_of_configured hc, funcOfCode_funcCode]

theorem exec_canenc_of_canRequest {cmd len : Byte} {sel : Half} {f : List Byte} (hc : Configured s h sl a)
    (hf : canRequest s.params.canCodes a cmd len sel = .ok f) :
    exec (.canenc cmd len sel h) s = .next (respond (withCanLabel a (withFrame f okRecord)) s) := by
  simp only [exec, execCanenc, onHandle_of_configured hc, hf]

end Configured

theorem exists_funcCode_eq {fn : Byte} (hfn : fn ∈ [0x03#8, 0x06#8, 0x10#8]) : ∃ k, funcCode k = fn := by
  simp only [List.mem_cons, List.not_mem_nil, or_false] at hfn
  obtain rfl | rfl | rfl := hfn
  · exact ⟨.read, rfl⟩
  · exact ⟨.writeSingle, rfl⟩
  · exact ⟨.writeMulti, rfl⟩

/-- Settles O20: a code of the set is a function's, and OUT holds that function's request. -/
theorem r485encBuildsTheRequestFrame : Obligations.R485encBuildsTheRequestFrame := by
  intro s h sl a fn reg val hc hfn
  obtain ⟨k, rfl⟩ := exists_funcCode_eq hfn
  exact exec_r485enc_funcCode hc k reg val

@[simp] theorem commandOfSelector_selectorOf (c : Command) : commandOfSelector (selectorOf c) = some c := by
  cases c <;> rfl

theorem selectorOf_of_commandOfSelector {b : Byte} {c : Command} (hb : commandOfSelector b = some c) :
    selectorOf c = b := by
  unfold commandOfSelector at hb
  split_ifs at hb <;> cases hb <;> subst_vars <;> rfl

/-- The selectors are 0 to 5 (30_encoding.md R107). -/
theorem exists_selectorOf_eq_iff {b : Byte} : (∃ c, selectorOf c = b) ↔ b.toNat ≤ 5 := by
  constructor
  · rintro ⟨c, rfl⟩
    cases c <;> decide
  · intro hb
    obtain ⟨n, rfl⟩ : ∃ n : Fin 6, b = BitVec.ofNat 8 n := ⟨⟨b.toNat, by omega⟩, by simp⟩
    fin_cases n
    exacts [⟨.getValue, rfl⟩, ⟨.setId, rfl⟩, ⟨.setBaudrate, rfl⟩, ⟨.setMode, rfl⟩, ⟨.setReturnTime, rfl⟩,
      ⟨.setZero, rfl⟩]

/-- A command's wire code stands at its selector in the list of the codes. -/
theorem toList_getElem?_selectorOf (k : CanCodes) (c : Command) :
    k.toList[(selectorOf c).toNat]? = some (cmdCode k c) := by
  cases c <;> rfl

theorem toList_getD_selectorOf (k : CanCodes) (c : Command) :
    k.toList.getD (selectorOf c).toNat 0#8 = cmdCode k c := by
  rw [List.getD_eq_getElem?_getD, toList_getElem?_selectorOf, Option.getD_some]

/-- A request of length 3, 4 or 5 is cut from the frame with the whole selection (42_can.md R190). -/
theorem canRequest_selectorOf (k : CanCodes) (a : Byte) (c : Command) {len : Byte} (hlen : len ∈ [3#8, 4#8, 5#8])
    (sel : Half) :
    canRequest k a (selectorOf c) len sel = .ok ([len, a, cmdCode k c, lo8 sel, hi8 sel].take len.toNat) := by
  rw [canRequest, commandOfSelector_selectorOf]
  simp only [List.mem_cons, List.not_mem_nil, or_false] at hlen
  obtain rfl | rfl | rfl := hlen <;> rfl

/-- The identifier of a request is the address (30_encoding.md R105). -/
theorem setWidth_eleven_eq_append (a : Byte) : a.setWidth 11 = 0#3 ++ a :=
  BitVec.setWidth_eq_append (by decide)

/-- Settles O37: OUT holds the request of the length asked for. -/
theorem canencBuildsTheRequestFrame : Obligations.CanencBuildsTheRequestFrame := by
  intro s h sl a cmd len sel hc hcmd hlen
  obtain ⟨c, rfl⟩ := exists_selectorOf_eq_iff.2 hcmd
  rw [exec_canenc_of_canRequest hc (canRequest_selectorOf _ a c hlen sel), ← toList_getD_selectorOf,
    ← setWidth_eleven_eq_append]
  simp only [List.mem_cons, List.not_mem_nil, or_false] at hlen
  obtain rfl | rfl | rfl := hlen <;> rfl

/-- Distinct codes stand for distinct commands: their places in the list of the codes are the selectors. -/
theorem cmdCode_injective {k : CanCodes} (hk : k.Distinct = true) : Function.Injective (cmdCode k) := by
  intro c c' hcc
  have hnodup : k.toList.Nodup := of_decide_eq_true hk
  have hlt : (selectorOf c).toNat < k.toList.length :=
    (List.getElem?_eq_some_iff.1 (toList_getElem?_selectorOf k c)).1
  have hget : k.toList[(selectorOf c).toNat]? = k.toList[(selectorOf c').toNat]? := by
    rw [toList_getElem?_selectorOf, toList_getElem?_selectorOf, hcc]
  have hsel : selectorOf c = selectorOf c' := BitVec.eq_of_toNat_eq ((List.getElem?_inj hlt hnodup).1 hget)
  simpa using congrArg commandOfSelector hsel

/-- Settles O39: the codes of distinct places differ, and the selectors are those of the six commands. -/
theorem canCommandCodesAreDistinct : Obligations.CanCommandCodesAreDistinct := by
  refine ⟨fun k c c' hk hcc => cmdCode_injective hk hcc, fun k => rfl, fun b => ?_, commandOfSelector_selectorOf⟩
  rw [← exists_selectorOf_eq_iff, Option.isSome_iff_exists]
  exact exists_congr fun c => ⟨selectorOf_of_commandOfSelector, fun h => h ▸ commandOfSelector_selectorOf c⟩

/-! ### Operations that take no IN do not read it -/

/-- The state with another IN. -/
def State.withInPort (f : List Byte) (s : State) : State := { s with inPort := f }

@[simp] theorem State.withInPort_params (f : List Byte) (s : State) : (s.withInPort f).params = s.params := rfl

/-- An operation that does the same whatever IN is, and leaves IN as it is. -/
def IgnoresInput (op : State → Answer) : Prop :=
  ∀ s f, ∃ t, op s = .next t ∧ op (s.withInPort f) = .next (t.withInPort f)

theorem stop_withInPort (e : Stop) (s : State) (f : List Byte) :
    stop e (s.withInPort f) = (stop e s).withInPort f := by
  cases e <;> rfl

/-- Without the check of IN_CAP the common checks do not read IN. -/
theorem precheck_withInPort {n : Needs} (hn : n.input = false) (h : Byte) (s : State) (f : List Byte) :
    precheck n h (s.withInPort f) = precheck n h s := by
  simp only [precheck, hn, Bool.false_and]
  rfl

theorem onHandle_ignoresInput {n : Needs} (hn : n.input = false) (h : Byte) {body : State → Slot → Byte → State}
    (hbody : ∀ s f sl a, body (s.withInPort f) sl a = (body s sl a).withInPort f) :
    IgnoresInput fun s => onHandle n h s (body s) := by
  intro s f
  have hsame : precheckAddr n h (s.withInPort f) = precheckAddr n h s := by
    simp only [precheckAddr, precheck_withInPort hn]
  simp only [onHandle, hsame]
  cases precheckAddr n h s with
  | error e => exact ⟨_, rfl, congrArg _ (stop_withInPort e s f)⟩
  | ok x => exact ⟨_, rfl, congrArg _ (hbody s f x.1 x.2)⟩

theorem sendOn_withInPort (ch : Nat) (p : HostPrimitive) (s : State) (f : List Byte) :
    sendOn ch p (s.withInPort f) = ((sendOn ch p s).1, (sendOn ch p s).2.withInPort f) := rfl

theorem receiveOn_withInPort (ch n : Nat) (s : State) (f : List Byte) :
    receiveOn ch n (s.withInPort f) = ((receiveOn ch n s).1, (receiveOn ch n s).2.withInPort f) := rfl

theorem execR485enc_ignoresInput (fn : Byte) (reg val : Half) (h : Byte) :
    IgnoresInput (execR485enc fn reg val h) := by
  refine onHandle_ignoresInput rfl h fun s f sl a => ?_
  cases funcOfCode fn <;> rfl

theorem execCanenc_ignoresInput (cmd len : Byte) (sel : Half) (h : Byte) :
    IgnoresInput (execCanenc cmd len sel h) := by
  refine onHandle_ignoresInput rfl h fun s f sl a => ?_
  rw [State.withInPort_params]
  cases canRequest s.params.canCodes a cmd len sel <;> rfl

/-- What R485WR and R485RDPOS share: transmit, then receive n bytes, and a record of each outcome (41_rs485.md R161, R162). -/
def exchange (ch n : Nat) (p : HostPrimitive) (txFail rxFail : Byte → Response) (received : List Byte → Response)
    (s : State) : State :=
  match sendOn ch p s with
  | (some x, s₁) => respond (txFail x) s₁
  | (none, s₁) =>
    match receiveOn ch n s₁ with
    | (.error x, s₂) => respond (rxFail x) s₂
    | (.ok bytes, s₂) => respond (received bytes) s₂

theorem exchange_withInPort (ch n : Nat) (p : HostPrimitive) (txFail rxFail : Byte → Response)
    (received : List Byte → Response) (s : State) (f : List Byte) :
    exchange ch n p txFail rxFail received (s.withInPort f) =
      (exchange ch n p txFail rxFail received s).withInPort f := by
  rw [exchange, exchange, sendOn_withInPort]
  rcases sendOn ch p s with ⟨_ | x, s₁⟩
  · dsimp only
    rw [receiveOn_withInPort]
    rcases receiveOn ch n s₁ with ⟨x | bytes, s₂⟩ <;> rfl
  · rfl

theorem writeRoundTrip_ignoresInput (reg val : Half) (h : Byte) : IgnoresInput (writeRoundTrip reg val h) :=
  onHandle_ignoresInput rfl h fun s f sl _ =>
    exchange_withInPort sl.binding.transport writeAckLength _ _ _ _ s f

theorem execR485rdpos_ignoresInput (h : Byte) : IgnoresInput (execR485rdpos h) :=
  onHandle_ignoresInput rfl h fun s f sl _ => exchange_withInPort sl.binding.transport 9 _ _ _ _ s f

theorem execR485rdposa_ignoresInput (h : Byte) : IgnoresInput (execR485rdposa h) := by
  refine onHandle_ignoresInput rfl h fun s f sl a => ?_
  simp only [sendOn_withInPort]
  rcases sendOn sl.binding.transport _ s with ⟨_ | x, s₁⟩ <;> rfl

theorem sendRequest_ignoresInput (cmd len : Byte) (sel : Half) (h : Byte) :
    IgnoresInput (sendRequest cmd len sel h) := by
  refine onHandle_ignoresInput rfl h fun s f sl a => ?_
  simp only [State.withInPort_params, sendOn_withInPort]
  cases canRequest s.params.canCodes a cmd len sel with
  | error q => rfl
  | ok frame =>
    dsimp only
    rcases sendOn sl.binding.transport _ s with ⟨_ | x, s₁⟩ <;> rfl

theorem execSetaddr_ignoresInput (a h : Byte) : IgnoresInput (execSetaddr a h) := by
  intro s f
  simp only [execSetaddr, precheck_withInPort (n := { idle := true }) rfl]
  cases precheck { idle := true } h s with
  | error e => exact ⟨_, rfl, congrArg _ (stop_withInPort e s f)⟩
  | ok sl =>
    dsimp only
    split_ifs <;> exact ⟨_, rfl, rfl⟩

/-- Every operation without IN, by what it shares with others (43_config.md R221, R222). -/
theorem exec_ignoresInput {i : Instr} (hi : takesInput i = false) : IgnoresInput (exec i) := by
  cases i with
  | crc16 | r485chk | r485pos | r485rxcb | candec | canrxcb => cases hi
  | r485enc fn reg val h => exact execR485enc_ignoresInput fn reg val h
  | canenc cmd len sel h => exact execCanenc_ignoresInput cmd len sel h
  | r485rdpos h => exact execR485rdpos_ignoresInput h
  | r485rdposa h => exact execR485rdposa_ignoresInput h
  | setaddr a h => exact execSetaddr_ignoresInput a h
  | r485wr | set485addr | set485baud | set485mode | set485ret | set485zero | set485dir =>
    rw [funext (exec_of_registerWrite? rfl)]
    exact writeRoundTrip_ignoresInput _ _ _
  | cansend | canget | cansetid | cansetbaud | cansetmode | cansetret | cansetzero =>
    rw [funext (exec_of_canRequest? rfl)]
    exact sendRequest_ignoresInput _ _ _ _

/-- Settles O59: neither the checks nor the body of such an operation read IN. -/
theorem inputOfOtherOperationsIsIgnored : Obligations.InputOfOtherOperationsIsIgnored :=
  fun _ f s hi => exec_ignoresInput hi s f

/-! ### Words and lines -/

/-- A word that names no operation raises F_ILLEGAL_OP (30_encoding.md R94). -/
theorem runWord_of_decode_error {w : OpWord} {e : DecodeError} (hd : decode w = .error e) (s : State) :
    runWord w s = .next (raiseFault .illegalOp s) := by
  simp only [runWord, hd]

/-- Settles O3: the request's step raises the fault and retires. -/
theorem illegalWordOnlySetsTheFaultMark : Obligations.IllegalWordOnlySetsTheFaultMark := by
  intro s r rest e hp hd
  rw [step_of_op hp, runWord_of_decode_error hd, retireAnswer_next, retire, raiseFault]

/-- Settles O9: each line is assembled by evaluation. -/
theorem assemblerLinesGiveTheSpecsWords : Obligations.AssemblerLinesGiveTheSpecsWords := by
  refine ⟨?_, ?_, ?_, ?_, ?_, ?_⟩ <;> decide

end Sys2Proof.Machine
end

section
/-! ## Proofs of the CRC family
One iteration is linear for XOR and loses no bit; from there follow the table formulation, the zero residue and the detection of one changed byte. -/

namespace Sys2Proof.Machine

/-! ### One iteration -/

/-- The iteration as a shift and a masked polynomial (40_crc.md R131). -/
theorem crcBit_eq (x : Half) : crcBit x = (x >>> 1) ^^^ (if x.getLsbD 0 then Config.crcPoly else 0#16) := by
  unfold crcBit
  split_ifs
  · rfl
  · exact BitVec.xor_zero.symm

theorem crcBit_xor (x y : Half) : crcBit (x ^^^ y) = crcBit x ^^^ crcBit y := by
  have hmask (a b : Bool) (m : Half) :
      (if a ^^ b then m else 0#16) = (if a then m else 0#16) ^^^ (if b then m else 0#16) := by
    cases a <;> cases b <;> simp
  rw [crcBit_eq, crcBit_eq, crcBit_eq, BitVec.getLsbD_xor, BitVec.ushiftRight_xor_distrib, hmask]
  ac_rfl

/-- The bit shifted out is kept at the top, since the polynomial has its top bit set. -/
theorem crcBit_getLsbD_top (x : Half) : (crcBit x).getLsbD 15 = x.getLsbD 0 := by
  rw [crcBit_eq]
  cases x.getLsbD 0 <;> simp [Config.crcPoly]

theorem crcBit_injective : Function.Injective crcBit := by
  intro x y hxy
  have hlow : x.getLsbD 0 = y.getLsbD 0 := by rw [← crcBit_getLsbD_top, hxy, crcBit_getLsbD_top]
  have hshift : x >>> 1 = y >>> 1 := by
    rw [crcBit_eq, crcBit_eq, hlow] at hxy
    exact (BitVec.xor_left_inj _).1 hxy
  refine BitVec.eq_of_getLsbD_eq fun i _ => ?_
  cases i with
  | zero => exact hlow
  | succ j => simpa [Nat.add_comm] using congrArg (BitVec.getLsbD · j) hshift

/-! ### Several iterations -/

theorem crcBits_eq_iterate (n : Nat) (x : Half) : crcBits n x = crcBit^[n] x := by
  induction n generalizing x with
  | zero => rfl
  | succ n ih => exact ih (crcBit x)

theorem crcBits_xor (n : Nat) (x y : Half) : crcBits n (x ^^^ y) = crcBits n x ^^^ crcBits n y := by
  induction n generalizing x y with
  | zero => rfl
  | succ n ih => rw [crcBits, crcBit_xor, ih, crcBits, crcBits]

theorem crcBits_injective (n : Nat) : Function.Injective (crcBits n) := by
  rw [funext (crcBits_eq_iterate n)]
  exact crcBit_injective.iterate n

/-- Iterations that shift out zeros only shift. -/
theorem crcBits_of_low_bits_clear {n : Nat} {x : Half} (hx : ∀ i < n, x.getLsbD i = false) :
    crcBits n x = x >>> n := by
  induction n generalizing x with
  | zero => simp [crcBits]
  | succ n ih =>
    have hbit : crcBit x = x >>> 1 := by rw [crcBit, hx 0 n.succ_pos, if_neg Bool.false_ne_true]
    have hrest : ∀ i < n, (x >>> 1).getLsbD i = false := fun i hi => by
      simpa [Nat.add_comm] using hx (i + 1) (by omega)
    rw [crcBits, hbit, ih hrest, ← BitVec.shiftRight_add, Nat.add_comm]

/-! ### One byte -/

/-- The accumulator's high byte only shifts down; the table looks up the low byte XOR the input byte (40_crc.md R132). -/
theorem crcByteByTable_eq_crcByte (acc : Half) (b : Byte) : crcByteByTable acc b = crcByte acc b := by
  have hsplit : acc ^^^ b.setWidth 16 = (acc >>> 8) <<< 8 ^^^ (lo8 acc ^^^ b).setWidth 16 := by
    refine BitVec.eq_of_getLsbD_eq fun i hi => ?_
    by_cases h8 : i < 8
    · simp [lo8, hi, h8]
    · simp [lo8, hi, h8, Nat.add_sub_cancel' (Nat.not_lt.1 h8)]
  have hhigh : crcBits 8 ((acc >>> 8) <<< 8) = acc >>> 8 := by
    rw [crcBits_of_low_bits_clear fun i hi => by simp [hi]]
    refine BitVec.eq_of_getLsbD_eq fun i _ => ?_
    simpa using acc.lt_of_getLsbD (i := 8 + i)
  rw [crcByte, hsplit, crcBits_xor, hhigh, crcByteByTable, crcTableEntry]

/-- The byte that equals the low byte of the accumulator clears it, so its 8 iterations only shift. -/
theorem crcByte_lo8 (acc : Half) : crcByte acc (lo8 acc) = acc >>> 8 := by
  have hzero : crcTableEntry 0#8 = 0#16 := by decide
  rw [← crcByteByTable_eq_crcByte, crcByteByTable, BitVec.xor_self, hzero, BitVec.xor_zero]

theorem crcByte_injective_acc (b : Byte) : Function.Injective (crcByte · b) :=
  fun _ _ h => (BitVec.xor_left_inj _).1 (crcBits_injective 8 h)

theorem crcByte_injective_byte (acc : Half) : Function.Injective (crcByte acc) := by
  intro b c h
  have hwide : b.setWidth 16 = c.setWidth 16 := (BitVec.xor_right_inj _).1 (crcBits_injective 8 h)
  simpa using congrArg (BitVec.setWidth 8) hwide

/-! ### A byte sequence -/

theorem crcFrom_injective_acc (s : List Byte) : Function.Injective (crcFrom · s) := by
  induction s with
  | nil => exact fun _ _ h => h
  | cons b s ih => exact fun _ _ h => crcByte_injective_acc b (ih h)

theorem crc16_append (s t : List Byte) : crc16 (s ++ t) = crcFrom (crc16 s) t :=
  List.foldl_append

/-- A change of one byte changes the CRC. -/
theorem crc16_set_ne {s : List Byte} {i : Nat} {b : Byte} (hi : i < s.length) (hb : b ≠ s[i]) :
    crc16 (s.set i b) ≠ crc16 s := by
  intro h
  have hs : s = s.take i ++ s[i] :: s.drop (i + 1) := by simp
  rw [List.set_eq_take_append_cons_drop, if_pos hi] at h
  conv_rhs at h => rw [hs]
  rw [crc16_append, crc16_append] at h
  exact hb (crcByte_injective_byte _ (crcFrom_injective_acc _ h))

theorem byteAt_eq_getElem {s : List Byte} {i : Nat} (hi : i < s.length) : byteAt s i = s[i] :=
  List.getD_eq_getElem s 0#8 hi

/-- A flipped bit changes its byte, so it changes the CRC. -/
theorem crc16_flipBit_ne {s : List Byte} {i k : Nat} (hi : i < s.length) (hk : k < 8) :
    crc16 (flipBit s i k) ≠ crc16 s := by
  refine crc16_set_ne hi fun h => ?_
  have hbit := congrArg (BitVec.getLsbD · k) (h.trans (byteAt_eq_getElem hi).symm)
  simp [hk] at hbit

/-! ### A sequence with its CRC -/

theorem le16_lo8_hi8 (v : Half) : le16 (lo8 v) (hi8 v) = v :=
  BitVec.extractLsb'_append_extractLsb' (w := 8) (len := 8)

theorem lo8_le16 (l h : Byte) : lo8 (le16 l h) = l := BitVec.extractLsb'_append_eq_right

theorem hi8_le16 (l h : Byte) : hi8 (le16 l h) = h := BitVec.extractLsb'_append_eq_left

theorem lo8_ushiftRight_eight (v : Half) : lo8 (v >>> 8) = hi8 v := by
  refine BitVec.eq_of_getLsbD_eq fun i _ => ?_
  simp [lo8, hi8]

/-- Each of the two CRC bytes equals the low byte of the accumulator it meets (40_crc.md R135 property 3). -/
theorem crc16_withCrc (p : List Byte) : crc16 (withCrc p) = 0x0000#16 := by
  calc crc16 (withCrc p) = crcByte (crcByte (crc16 p) (lo8 (crc16 p))) (hi8 (crc16 p)) := crc16_append p _
    _ = crc16 p >>> 8 >>> 8 := by rw [crcByte_lo8, ← lo8_ushiftRight_eight, crcByte_lo8]
    _ = 0x0000#16 := by rw [← BitVec.shiftRight_add]; exact BitVec.ushiftRight_eq_zero (Nat.le_refl 16)

theorem withCrc_length (p : List Byte) : (withCrc p).length = p.length + 2 := by
  rw [withCrc, List.length_append, crcBytes, List.length_cons, List.length_singleton]

theorem flipBit_length (s : List Byte) (i k : Nat) : (flipBit s i k).length = s.length :=
  List.length_set

theorem crcOk_withCrc (p : List Byte) : crcOk (withCrc p) p.length = true := by
  simp [crcOk, withCrc, crcBytes, byteAt, le16_lo8_hi8]

/-- A sequence whose last two bytes pass the check is the rest with its CRC (40_crc.md R134). -/
theorem withCrc_take_of_crcOk {s : List Byte} {n : Nat} (hlen : s.length = n + 2) (hs : crcOk s n = true) :
    withCrc (s.take n) = s := by
  have hcrc : crc16 (s.take n) = le16 (byteAt s n) (byteAt s (n + 1)) := by
    simpa [crcOk, hlen] using hs
  have hlast : s.drop n = [byteAt s n, byteAt s (n + 1)] := by
    rw [List.drop_eq_getElem_cons (by omega), List.drop_eq_getElem_cons (by omega),
      List.drop_eq_nil_of_le (by omega), byteAt_eq_getElem, byteAt_eq_getElem]
  rw [withCrc, crcBytes, hcrc, lo8_le16, hi8_le16, ← hlast, List.take_append_drop]

/-- A flipped bit leaves no zero residue, which every sequence that passes the check has. -/
theorem crcOk_flipBit_withCrc (p : List Byte) {i k : Nat} (hi : i < p.length + 2) (hk : k < 8) :
    crcOk (flipBit (withCrc p) i k) p.length = false := by
  refine Bool.eq_false_iff.2 fun hok => ?_
  have hlen : (flipBit (withCrc p) i k).length = p.length + 2 := by rw [flipBit_length, withCrc_length]
  have hres : crc16 (flipBit (withCrc p) i k) = crc16 (withCrc p) := by
    rw [← withCrc_take_of_crcOk hlen hok, crc16_withCrc, crc16_withCrc]
  exact crc16_flipBit_ne (hi.trans_eq (withCrc_length p).symm) hk hres

/-- Settles O10: one more byte is 8 more iterations. -/
theorem crc16IsTheBitwiseAlgorithm : Obligations.Crc16IsTheBitwiseAlgorithm := by
  refine ⟨rfl, fun s b => ?_⟩
  exact (crc16_append s [b]).trans (crcBits_eq_iterate 8 _)

/-- Settles O11: the two formulations agree on one byte after any accumulator. -/
theorem tableCrcEqualsBitwiseCrc : Obligations.TableCrcEqualsBitwiseCrc := by
  intro s
  have hbyte : crcByteByTable = crcByte := funext₂ crcByteByTable_eq_crcByte
  rw [crc16ByTable, crc16, crcFrom, hbyte]

/-- Settles O12: the CRC bytes clear the accumulator, and are what the check reads. -/
theorem crcOfSequenceWithItsCrcIsZero : Obligations.CrcOfSequenceWithItsCrcIsZero :=
  fun p => ⟨crc16_withCrc p, crcOk_withCrc p⟩

/-- Settles O13: the flipped sequence has no zero residue. -/
theorem crcDetectsEverySingleBitFlip : Obligations.CrcDetectsEverySingleBitFlip :=
  fun p _ _ hi hk => crcOk_flipBit_withCrc p hi hk

/-! ### The operation CRC16 -/

theorem exec_crc16_of_inputFits {s : State} (hfits : InputFits s) :
    exec .crc16 s = .next (respond { okRecord with crc := some (crc16 s.inPort) } s) :=
  if_neg (Nat.not_lt.2 hfits)

/-- Settles O14: the length of IN against IN_CAP is the one check. -/
theorem crc16OperationGivesTheCrc : Obligations.Crc16OperationGivesTheCrc :=
  fun _ => ⟨exec_crc16_of_inputFits, exec_crc16_of_not_inputFits⟩

/-! ### RS485 frames with a flipped bit -/

section Configured
variable {s : State} {h : Byte} {sl : Slot} {a : Byte}

/-- An operation that takes IN asks for the handle, its address and an input that fits. -/
theorem onHandle_input_of_configured (hc : Configured s h sl a) (hin : InputFits s) (body : Slot → Byte → State) :
    onHandle { input := true } h s body = .next (body sl a) :=
  onHandle_of_ok (precheck_ok_iff.2 ⟨hc.1, nofun, fun _ => hin, nofun, nofun⟩) hc.2

theorem exec_r485pos_of_configured (hc : Configured s h sl a) (hin : InputFits s) :
    exec (.r485pos h) s = .next (respond (positionRecord (rs485Position s.inPort a)) s) :=
  onHandle_input_of_configured hc hin _

theorem exec_r485chk_writeSingle_of_configured (hc : Configured s h sl a) (hin : InputFits s) (reg val : Half) :
    exec (.r485chk (funcCode .writeSingle) reg val h) s =
      .next (respond (validationRecord (validateAck s.inPort a reg val)) s) :=
  onHandle_input_of_configured hc hin _

end Configured

/-- A READ response passes only with its CRC after the data that its byte 2 counts (41_rs485.md R155). -/
theorem crcOk_of_validateRead_ok {f : List Byte} {a : Byte} (hv : validateRead f a = .ok ()) :
    crcOk f (3 + (byteAt f 2).toNat) = true := by
  unfold validateRead at hv
  split at hv
  · cases hv
  · unfold validateReadForm at hv
    split_ifs at hv with _ _ hcrc
    simpa using hcrc

/-- A position comes only from a response of four data bytes and its CRC (41_rs485.md R160). -/
theorem crcOk_of_rs485Position_ok {f : List Byte} {a : Byte} {p : Position} (hv : rs485Position f a = .ok p) :
    crcOk f 7 = true := by
  unfold rs485Position at hv
  split at hv
  next => cases hv
  next hread =>
    split_ifs at hv with hcount
    simpa [not_not.1 hcount] using crcOk_of_validateRead_ok hread

/-- A write acknowledgement passes only with its CRC after six bytes (41_rs485.md R156). -/
theorem crcOk_of_validateAck_ok {f : List Byte} {a : Byte} {reg val : Half} (hv : validateAck f a reg val = .ok ()) :
    crcOk f 6 = true := by
  unfold validateAck at hv
  split at hv
  · cases hv
  · unfold validateAckForm at hv
    split_ifs at hv with _ hcrc
    simpa using hcrc

/-- A check that accepts only after the CRC check at the frame's own length rejects the frame with a flipped bit. -/
theorem exists_error_of_flipBit_withCrc {α : Type} {check : List Byte → Except Reason α} {p : List Byte} {i k : Nat}
    (hcrc : ∀ f x, check f = .ok x → crcOk f p.length = true) (hne : ∀ f, check f ≠ .error .none)
    (hi : i < p.length + 2) (hk : k < 8) :
    ∃ q, q ≠ .none ∧ check (flipBit (withCrc p) i k) = .error q := by
  cases hv : check (flipBit (withCrc p) i k) with
  | ok x => exact absurd (hcrc _ x hv) (Bool.eq_false_iff.1 (crcOk_flipBit_withCrc p hi hk))
  | error q => exact ⟨q, fun hq => hne _ (hq ▸ hv), rfl⟩

/-- Settles O28: the check of a position response asks for the CRC after 7 bytes, that of a write acknowledgement after 6. -/
theorem rs485DetectsEverySingleBitFlip : Obligations.Rs485DetectsEverySingleBitFlip := by
  constructor
  · intro s h sl a p i k hc hin hi hk hs
    obtain ⟨q, hq, hv⟩ := exists_error_of_flipBit_withCrc
      (p := [a, funcCode .read, BitVec.ofNat 8 (bigEndianBytes p).length] ++ bigEndianBytes p)
      (fun _ _ => crcOk_of_rs485Position_ok) (rs485Position_ne_none · a) hi hk
    refine ⟨q, hq, (exec_r485pos_of_configured hc hin).trans ?_⟩
    rw [show rs485Position s.inPort a = .error q from hs ▸ hv]
    rfl
  · intro s h sl a reg val i k hc hin hi hk hs
    obtain ⟨q, hq, hv⟩ := exists_error_of_flipBit_withCrc
      (p := [a, funcCode .writeSingle, hi8 reg, lo8 reg, hi8 val, lo8 val])
      (fun _ _ => crcOk_of_validateAck_ok) (validateAck_ne_none · a reg val) hi hk
    refine ⟨q, hq, (exec_r485chk_writeSingle_of_configured hc hin reg val).trans ?_⟩
    rw [show validateAck s.inPort a reg val = .error q from hs ▸ hv]
    rfl

end Sys2Proof.Machine
end

section
/-! ## Proofs of the RS485 family
A validation accepts exactly the inputs that begin with a frame, so it is stated through `<+:`; a transaction is an exchange with the host, one lemma per answer it gets. -/

namespace Sys2Proof.Machine

/-! ### Validation accepts the inputs that begin with a frame (41_rs485.md R152 to R158) -/

theorem length_le_of_crcOk {f : List Byte} {n : Nat} (hcrc : crcOk f n = true) : n + 2 ≤ f.length :=
  of_decide_eq_true (Bool.and_eq_true_iff.1 hcrc).1

/-- An input begins with p and its CRC exactly when it begins with p and the check passes after p (40_crc.md R134). -/
theorem withCrc_prefix_iff {p f : List Byte} : withCrc p <+: f ↔ p <+: f ∧ crcOk f p.length = true := by
  constructor
  · rintro ⟨extra, rfl⟩
    refine ⟨(List.prefix_append p _).trans (List.prefix_append _ extra), ?_⟩
    simp [crcOk, withCrc, crcBytes, byteAt, le16_lo8_hi8]
  · rintro ⟨⟨rest, rfl⟩, hcrc⟩
    match rest with
    | [] | [_] => simp [crcOk] at hcrc
    | l :: r :: extra =>
      have hval : crc16 p = le16 l r := by simpa [crcOk, byteAt] using hcrc
      exact ⟨extra, by simp [withCrc, crcBytes, hval, lo8_le16, hi8_le16]⟩

theorem validateHeader_eq_ok_iff {f : List Byte} {a fn : Byte} :
    validateHeader f a fn = .ok () ↔ [a, fn] <+: f := by
  match f with
  | [] | [_] => simp [validateHeader]
  | x :: y :: rest =>
    have hv : validateHeader (x :: y :: rest) a fn =
        if x ≠ a then .error .addrMismatch else if y ≠ fn then .error .funcMismatch else .ok () := rfl
    rw [hv, List.cons_prefix_cons, List.cons_prefix_cons, eq_comm (a := a), eq_comm (a := fn)]
    split_ifs with hx hy <;> simp_all

theorem validateReadForm_eq_ok_iff {f : List Byte} :
    validateReadForm f = .ok () ↔ crcOk f (3 + (byteAt f 2).toNat) = true := by
  unfold validateReadForm readResponseLength
  constructor
  · intro hv
    split_ifs at hv with _ _ hcrc
    simpa using hcrc
  · intro hcrc
    have hlen := length_le_of_crcOk hcrc
    rw [if_neg (by omega), if_neg (by omega), if_neg (by simp [hcrc])]

theorem validateAckForm_eq_ok_iff {f : List Byte} {reg val : Half} :
    validateAckForm f reg val = .ok () ↔ crcOk f 6 = true ∧
      [byteAt f 2, byteAt f 3, byteAt f 4, byteAt f 5] = [hi8 reg, lo8 reg, hi8 val, lo8 val] := by
  unfold validateAckForm writeAckLength
  constructor
  · intro hv
    split_ifs at hv with _ hcrc hecho
    exact ⟨by simpa using hcrc, not_not.1 hecho⟩
  · rintro ⟨hcrc, hecho⟩
    have hlen := length_le_of_crcOk hcrc
    rw [if_neg (by omega), if_neg (by simp [hcrc]), if_neg (not_not.2 hecho)]

theorem validateRead_eq_ok_iff {f : List Byte} {a : Byte} :
    validateRead f a = .ok () ↔
      [a, funcCode .read] <+: f ∧ crcOk f (3 + (byteAt f 2).toNat) = true := by
  rw [← validateHeader_eq_ok_iff, ← validateReadForm_eq_ok_iff, validateRead]
  cases validateHeader f a (funcCode .read) <;> simp

/-- A write acknowledgement passes exactly when the input begins with the request (41_rs485.md R156 to R158). -/
theorem validateAck_eq_ok_iff {f : List Byte} {a : Byte} {reg val : Half} :
    validateAck f a reg val = .ok () ↔ rs485Request a (funcCode .writeSingle) reg val <+: f := by
  have hform : validateAck f a reg val = .ok () ↔
      validateHeader f a (funcCode .writeSingle) = .ok () ∧ validateAckForm f reg val = .ok () := by
    unfold validateAck
    cases validateHeader f a (funcCode .writeSingle) <;> simp
  rw [hform, validateHeader_eq_ok_iff, validateAckForm_eq_ok_iff, rs485Request, withCrc_prefix_iff, and_left_comm]
  refine Iff.trans (and_congr_right fun hcrc => ?_) and_comm
  have hlen : 8 ≤ f.length := length_le_of_crcOk hcrc
  match f with
  | b0 :: b1 :: b2 :: b3 :: b4 :: b5 :: rest => simp [byteAt, eq_comm, and_assoc]

/-- Byte 2 of an input that begins with a READ response counts the data bytes (30_encoding.md R101). -/
theorem byteAt_two_of_readResponse {a : Byte} {data f : List Byte} (hf : rs485ReadResponse a data <+: f) :
    byteAt f 2 = BitVec.ofNat 8 data.length := by
  obtain ⟨extra, rfl⟩ := hf
  rfl

theorem validateRead_of_readResponse {a : Byte} {data f : List Byte} (hlen : data.length ≤ 255)
    (hf : rs485ReadResponse a data <+: f) : validateRead f a = .ok () := by
  have hcount : (byteAt f 2).toNat = data.length := by
    rw [byteAt_two_of_readResponse hf, BitVec.toNat_ofNat]
    omega
  obtain ⟨hbody, hcrc⟩ := withCrc_prefix_iff.1 hf
  refine validateRead_eq_ok_iff.2 ⟨(List.prefix_append [a, funcCode .read] _).trans hbody, ?_⟩
  rw [hcount]
  rwa [List.length_append] at hcrc

/-- A READ response passes exactly when the input begins with one of at most 255 data bytes (41_rs485.md R155, R158). -/
theorem validateRead_eq_ok_iff_readResponse {f : List Byte} {a : Byte} :
    validateRead f a = .ok () ↔ ∃ data : List Byte, data.length ≤ 255 ∧ rs485ReadResponse a data <+: f := by
  refine ⟨fun hv => ?_, fun ⟨data, hlen, hf⟩ => validateRead_of_readResponse hlen hf⟩
  obtain ⟨⟨rest, rfl⟩, hcrc⟩ := validateRead_eq_ok_iff.1 hv
  match rest with
  | [] => simp [crcOk] at hcrc
  | c :: t =>
    have hcrc : crcOk (a :: funcCode .read :: c :: t) (3 + c.toNat) = true := hcrc
    have hlen := length_le_of_crcOk hcrc
    have hdata : (t.take c.toNat).length = c.toNat := by
      simp only [List.length_cons] at hlen
      rw [List.length_take]
      omega
    refine ⟨t.take c.toNat, hdata.trans_le (Nat.le_of_lt_succ c.isLt), withCrc_prefix_iff.2 ⟨?_, ?_⟩⟩
    · rw [hdata, BitVec.ofNat_toNat, BitVec.setWidth_eq]
      exact (List.prefix_append_right_inj [a, funcCode .read, c]).2 (List.take_prefix _ t)
    · rwa [List.length_append, hdata]

/-! ### The position of a response (41_rs485.md R160) -/

theorem getLsbD_be32 (b0 b1 b2 b3 : Byte) (i : Nat) : (be32 b0 b1 b2 b3).getLsbD i =
    if i < 8 then b3.getLsbD i else if i < 16 then b2.getLsbD (i - 8)
    else if i < 24 then b1.getLsbD (i - 16) else b0.getLsbD (i - 24) := by
  simp only [be32, BitVec.getLsbD_append]
  grind

theorem bigEndianBytes_be32 (b0 b1 b2 b3 : Byte) : bigEndianBytes (be32 b0 b1 b2 b3) = [b0, b1, b2, b3] := by
  simp only [bigEndianBytes, List.cons.injEq, and_true]
  refine ⟨?_, ?_, ?_, ?_⟩ <;> refine BitVec.eq_of_getLsbD_eq fun i hi => ?_
  all_goals
    rw [BitVec.getLsbD_extractLsb', getLsbD_be32]
    grind

theorem be32_bigEndianBytes (p : Position) :
    be32 (p.extractLsb' 24 8) (p.extractLsb' 16 8) (p.extractLsb' 8 8) (p.extractLsb' 0 8) = p := by
  refine BitVec.eq_of_getLsbD_eq fun i hi => ?_
  simp only [getLsbD_be32, BitVec.getLsbD_extractLsb']
  grind

theorem positionFrame_length (a : Byte) (p : Position) : (positionFrame a p).length = 9 := rfl

theorem rs485Position_of_byteCount {a : Byte} {data f : List Byte} (hlen : data.length ≤ 255) (hne : data.length ≠ 4)
    (hf : rs485ReadResponse a data <+: f) : rs485Position f a = .error .byteCount := by
  have hcount : byteAt f 2 ≠ 4#8 := by
    rw [byteAt_two_of_readResponse hf, ne_eq, ← BitVec.toNat_inj, BitVec.toNat_ofNat, BitVec.toNat_ofNat]
    omega
  simp only [rs485Position, validateRead_of_readResponse hlen hf, if_pos hcount]

theorem rs485Position_of_four_bytes {a b0 b1 b2 b3 : Byte} {f : List Byte}
    (hf : rs485ReadResponse a [b0, b1, b2, b3] <+: f) : rs485Position f a = .ok (be32 b0 b1 b2 b3) := by
  have hread : validateRead f a = .ok () := validateRead_of_readResponse (by simp) hf
  obtain ⟨extra, rfl⟩ := hf
  rw [rs485Position, hread]
  rfl

/-- A position comes exactly from an input that begins with its frame: never a silently wrong one (41_rs485.md R160). -/
theorem rs485Position_eq_ok_iff {f : List Byte} {a : Byte} {p : Position} :
    rs485Position f a = .ok p ↔ positionFrame a p <+: f := by
  constructor
  · intro hv
    have hread : validateRead f a = .ok () := by
      unfold rs485Position at hv
      split at hv
      · cases hv
      · assumption
    obtain ⟨data, hlen, hf⟩ := validateRead_eq_ok_iff_readResponse.1 hread
    by_cases h4 : data.length = 4
    · obtain ⟨b0, b1, b2, b3, rfl⟩ := List.length_eq_four.1 h4
      obtain rfl := Except.ok.inj ((rs485Position_of_four_bytes hf).symm.trans hv)
      rwa [positionFrame, bigEndianBytes_be32]
    · exact nomatch (rs485Position_of_byteCount hlen h4 hf).symm.trans hv
  · intro hf
    rw [rs485Position_of_four_bytes hf, be32_bigEndianBytes]

/-- An input that begins with no position frame is rejected with a reason (41_rs485.md R160). -/
theorem exists_error_of_no_positionFrame {f : List Byte} {a : Byte} (hf : ∀ p, ¬ positionFrame a p <+: f) :
    ∃ q, q ≠ .none ∧ rs485Position f a = .error q := by
  cases hv : rs485Position f a with
  | ok p => exact absurd (rs485Position_eq_ok_iff.1 hv) (hf p)
  | error q => exact ⟨q, fun hq => rs485Position_ne_none f a (hq ▸ hv), rfl⟩

/-! ### R485ENC, R485CHK and R485POS -/

theorem funcOfCode_eq_none {fn : Byte} (hfn : fn ∉ [0x03#8, 0x06#8, 0x10#8]) : funcOfCode fn = none := by
  simp only [List.mem_cons, List.not_mem_nil, or_false, not_or] at hfn
  obtain ⟨hread, hsingle, hmulti⟩ := hfn
  rw [funcOfCode, if_neg hread, if_neg hsingle, if_neg hmulti]

section Configured
variable {s : State} {h : Byte} {sl : Slot} {a : Byte}

theorem exec_r485chk_read_of_configured (hc : Configured s h sl a) (hin : InputFits s) (reg val : Half) :
    exec (.r485chk (funcCode .read) reg val h) s =
      .next (respond (validationRecord (validateRead s.inPort a)) s) :=
  onHandle_input_of_configured hc hin _

end Configured

/-- The record of a validation is OK just when the validation is, else INVALID with a reason (41_rs485.md R153). -/
theorem validationRecord_cases {v : Except Reason Unit} (hv : v ≠ .error .none) :
    (validationRecord v = okRecord ∨ ∃ q, validationRecord v = rejectRecord .invalid q ∧ q ≠ .none) ∧
      ((validationRecord v).status = .ok ↔ v = .ok ()) := by
  cases v with
  | ok => exact ⟨.inl rfl, iff_of_true rfl rfl⟩
  | error q => exact ⟨.inr ⟨q, rfl, fun hq => hv (congrArg _ hq)⟩, iff_of_false nofun nofun⟩

/-- Settles O21: such a code names no function. -/
theorem r485encRejectsOtherFunctionCodes : Obligations.R485encRejectsOtherFunctionCodes := by
  intro s h sl a fn reg val hc hfn
  simp only [exec, execR485enc, onHandle_of_configured hc, funcOfCode_eq_none hfn]
  rfl

/-- Settles O25: 0x10 names WRITE_MULTI, and a code outside the set no function. -/
theorem r485chkRefusesWriteMulti : Obligations.R485chkRefusesWriteMulti := by
  intro s h sl a fn reg val hc hin
  refine ⟨onHandle_input_of_configured hc hin _, fun hfn => ?_⟩
  simp only [exec, execR485chk, onHandle_input_of_configured hc hin, funcOfCode_eq_none hfn]
  rfl

/-- Settles O23: the validation passes exactly on the inputs that begin with the request. -/
theorem r485chkAcceptsExactlyTheEcho : Obligations.R485chkAcceptsExactlyTheEcho := by
  intro s h sl a reg val hc hin
  obtain ⟨hrecord, hok⟩ := validationRecord_cases (validateAck_ne_none s.inPort a reg val)
  refine ⟨_, exec_r485chk_writeSingle_of_configured hc hin reg val, hrecord, ?_⟩
  rw [hok, validateAck_eq_ok_iff, List.prefix_iff_eq_take, eq_comm]
  rfl

/-- Settles O24: the validation passes exactly on the inputs that begin with a READ response. -/
theorem r485chkAcceptsExactlyAReadResponse : Obligations.R485chkAcceptsExactlyAReadResponse := by
  intro s h sl a reg val hc hin
  obtain ⟨hrecord, hok⟩ := validationRecord_cases (validateRead_ne_none s.inPort a)
  refine ⟨_, exec_r485chk_read_of_configured hc hin reg val, hrecord, ?_⟩
  rw [hok, validateRead_eq_ok_iff_readResponse]
  simp only [List.IsPrefix, exists_and_left, eq_comm (a := s.inPort)]

/-- Settles O26: the position of the frame at the head of IN, or a reject. -/
theorem r485posGivesThePositionOrTheSentinel : Obligations.R485posGivesThePositionOrTheSentinel := by
  intro s h sl a hc hin
  rw [exec_r485pos_of_configured hc hin]
  refine ⟨fun p extra hs => ?_, fun hs => ?_⟩
  · rw [rs485Position_eq_ok_iff.2 ⟨extra, hs.symm⟩]
    rfl
  · obtain ⟨q, hq, hv⟩ := exists_error_of_no_positionFrame fun p ⟨extra, hf⟩ => hs p extra hf.symm
    exact ⟨q, hq, by rw [hv]; rfl⟩

/-- Settles O27: the response passes the validation, and its byte 2 is not 4. -/
theorem r485posRejectsOtherByteCounts : Obligations.R485posRejectsOtherByteCounts := by
  intro s h sl a data extra hc hin hlen hne hs
  rw [exec_r485pos_of_configured hc hin, rs485Position_of_byteCount hlen hne ⟨extra, hs.symm⟩]
  rfl

/-- Within the input, the CRC check is the comparison of the two bytes that follow, low byte first (40_crc.md R134). -/
theorem not_crcOk_iff {f : List Byte} {n m : Nat} (hm : m = n + 1) (hlen : m < f.length) :
    (!crcOk f n) = true ↔ crc16 (f.take n) ≠ f.getD m 0#8 ++ f.getD n 0#8 := by
  subst hm
  rw [crcOk, decide_eq_true (Nat.succ_le_of_lt hlen), Bool.true_and, Bool.not_eq_true', beq_eq_false_iff_ne]
  rfl

theorem validationRecord_ite (c : Prop) [Decidable c] (q : Reason) (v : Except Reason Unit) :
    validationRecord (if c then .error q else v) = if c then rejectRecord .invalid q else validationRecord v := by
  split_ifs <;> rfl

/-- The header checks come before the form's own (41_rs485.md R154). -/
theorem validateRead_eq (f : List Byte) (a : Byte) : validateRead f a =
    if f.length < 2 then .error .shortFrame else if byteAt f 0 ≠ a then .error .addrMismatch
    else if byteAt f 1 ≠ funcCode .read then .error .funcMismatch else validateReadForm f := by
  unfold validateRead validateHeader
  split_ifs <;> rfl

theorem validateAck_eq (f : List Byte) (a : Byte) (reg val : Half) : validateAck f a reg val =
    if f.length < 2 then .error .shortFrame else if byteAt f 0 ≠ a then .error .addrMismatch
    else if byteAt f 1 ≠ funcCode .writeSingle then .error .funcMismatch else validateAckForm f reg val := by
  unfold validateAck validateHeader
  split_ifs <;> rfl

/-- Settles O22: the length check before the CRC check makes the latter the comparison of two bytes. -/
theorem r485chkReportsTheFirstFailure : Obligations.R485chkReportsTheFirstFailure := by
  intro s h sl a reg val hc hin f len n inv
  constructor
  · refine (exec_r485chk_read_of_configured hc hin reg val).trans ?_
    rw [validateRead_eq, validateReadForm]
    simp only [validationRecord_ite]
    by_cases hlen : len < 5 + n
    · rw [if_pos (show f.length < readResponseLength f from hlen), if_pos hlen]
      rfl
    · have hcount : 5 + (byteAt s.inPort 2).toNat ≤ s.inPort.length := Nat.le_of_not_lt hlen
      simp only [not_crcOk_iff (f := s.inPort) (n := 3 + (byteAt s.inPort 2).toNat)
        (m := 4 + (byteAt s.inPort 2).toNat) (by omega) (by omega)]
      rfl
  · refine (exec_r485chk_writeSingle_of_configured hc hin reg val).trans ?_
    rw [validateAck_eq, validateAckForm]
    simp only [validationRecord_ite]
    by_cases hlen : len < 8
    · rw [if_pos (show f.length < writeAckLength from hlen), if_pos hlen]
      rfl
    · simp only [not_crcOk_iff (f := s.inPort) (n := 6) rfl (Nat.le_of_not_lt hlen)]
      rfl

/-! ### An exchange with the host (41_rs485.md R161, R162) -/

section Exchange
variable {ch n : Nat} {p : HostPrimitive} {txFail rxFail : Byte → Response} {received : List Byte → Response}
variable {s : State} {x : Byte} {d d' : List Byte}

theorem exchange_of_send_error (hx : answerAt s 0 = .error x) :
    exchange ch n p txFail rxFail received s = respond (txFail x) (takeDraw ⟨ch, p⟩ s) := by
  rw [exchange, sendOn_eq, hx]
  rfl

theorem exchange_of_receive_error (hd : answerAt s 0 = .ok d) (hx : answerAt s 1 = .error x) :
    exchange ch n p txFail rxFail received s =
      respond (rxFail x) (takeDraw ⟨ch, .receive n s.params.tRx⟩ (takeDraw ⟨ch, p⟩ s)) := by
  simp only [exchange, sendOn_eq, hd, sendStatus, receiveOn_eq, answerAt_takeDraw, hx, receivedBytes, takeDraw_params]

theorem exchange_of_ok (hd : answerAt s 0 = .ok d) (hd' : answerAt s 1 = .ok d') :
    exchange ch n p txFail rxFail received s =
      respond (received (exactBytes (s.draws + 1) n d'))
        (takeDraw ⟨ch, .receive n s.params.tRx⟩ (takeDraw ⟨ch, p⟩ s)) := by
  simp only [exchange, sendOn_eq, hd, sendStatus, receiveOn_eq, answerAt_takeDraw, hd', receivedBytes,
    takeDraw_params, takeDraw_draws]

end Exchange

section Configured
variable {s : State} {h : Byte} {sl : Slot} {a : Byte}

/-- An RS485 transaction asks for the handle, its address, an RS485 transport and BUSY[h] = 0. -/
theorem onHandle_rs485_of_configured (hc : Configured s h sl a) (hkind : sl.binding.kind = .rs485)
    (hidle : sl.busy = false) (body : Slot → Byte → State) :
    onHandle { kind := some .rs485, idle := true } h s body = .next (body sl a) :=
  onHandle_of_ok (precheck_ok_iff.2 ⟨hc.1, nofun, nofun, fun _ hk => hkind.trans (Option.some.inj hk), fun _ => hidle⟩)
    hc.2

theorem exec_registerWrite_of_configured {i : Instr} {reg val : Half} {f : List Byte}
    (hi : registerWrite? i = some (reg, val, h)) (hc : Configured s h sl a) (hkind : sl.binding.kind = .rs485)
    (hidle : sl.busy = false) (hf : f = rs485Request a (funcCode .writeSingle) reg val) :
    exec i s = .next (exchange sl.binding.transport 8 (.transmit f s.params.tTx)
      (fun x => withFrame f (transportRecord .txFail x)) (fun x => withFrame f (transportRecord .rxFail x))
      (fun bytes => withFrame f (validationRecord (validateAck bytes a reg val))) s) := by
  subst hf
  exact (exec_of_registerWrite? hi s).trans (onHandle_rs485_of_configured hc hkind hidle _)

theorem exec_r485rdpos_of_configured (hc : Configured s h sl a) (hkind : sl.binding.kind = .rs485)
    (hidle : sl.busy = false) :
    exec (.r485rdpos h) s = .next (exchange sl.binding.transport 9 (.transmit (positionRequest a) s.params.tTx)
      (fun x => withPos Config.sentinel (withFrame (positionRequest a) (transportRecord .txFail x)))
      (fun x => withPos Config.sentinel (withFrame (positionRequest a) (transportRecord .rxFail x)))
      (fun bytes => withFrame (positionRequest a) (positionRecord (rs485Position bytes a))) s) :=
  onHandle_rs485_of_configured hc hkind hidle _

theorem setBusyOf_of_slotAt (hsl : slotAt s h = some sl) (b : Bool) :
    setBusyOf h b s = { s with slots := s.slots.set h.toNat { sl with busy := b } } := by
  unfold slotAt at hsl
  simp only [setBusyOf, List.modify_eq_set_getElem?, hsl]
  rfl

/-- A delivery asks for the host, an input that fits, the handle, its address and an RS485 transport. -/
theorem exec_r485rxcb_of_configured (hc : Configured s h sl a) (hkind : sl.binding.kind = .rs485)
    (hagent : s.agent = .host) (hin : InputFits s) :
    exec (.r485rxcb h) s = .next (respond (positionRecord (rs485Position s.inPort a))
      { s with slots := s.slots.set h.toNat { sl with busy := false } }) := by
  rw [← setBusyOf_of_slotAt hc.1]
  exact onHandle_of_ok (precheck_ok_iff.2
    ⟨hc.1, fun _ => hagent, fun _ => hin, fun _ hk => hkind.trans (Option.some.inj hk), nofun⟩) hc.2

end Configured

/-- Settles O30: the two error outcomes of the exchange. -/
theorem registerWriteReportsTransportErrors : Obligations.RegisterWriteReportsTransportErrors := by
  intro i reg val h s sl a x d hi hc hkind hidle f sent
  rw [exec_registerWrite_of_configured hi hc hkind hidle (f := f) rfl]
  refine ⟨fun hx => ?_, fun hd hx => ?_⟩
  · rw [exchange_of_send_error hx, List.drop_one]
    rfl
  · rw [exchange_of_receive_error hd hx, takeDraw_takeDraw]
    rfl

/-- Settles O29: of eight bytes the validation accepts just the request. -/
theorem registerWriteSucceedsExactlyOnTheEcho : Obligations.RegisterWriteSucceedsExactlyOnTheEcho := by
  intro i reg val h s sl a d d' hi hc hkind hidle hd hd' f data
  have hecho : validateAck data a reg val = .ok () ↔ data = f := by
    rw [validateAck_eq_ok_iff]
    exact ⟨fun hf => (hf.eq_of_length (exactBytes_length _ 8 d').symm).symm, fun hf => hf ▸ List.prefix_rfl⟩
  rw [exec_registerWrite_of_configured hi hc hkind hidle (f := f) rfl, exchange_of_ok hd hd', takeDraw_takeDraw]
  cases hv : validateAck data a reg val with
  | ok =>
    have hf := hecho.1 hv
    exact ⟨.none, by rw [if_pos hf]; rfl, iff_of_true rfl hf⟩
  | error q =>
    have hf : data ≠ f := fun hf => nomatch hv.symm.trans (hecho.2 hf)
    have hq : q ≠ .none := fun hq => validateAck_ne_none data a reg val (hq ▸ hv)
    exact ⟨q, by rw [if_neg hf]; rfl, iff_of_false hq hf⟩

/-- Settles O32: the two error outcomes of the exchange. -/
theorem r485rdposReportsTransportErrors : Obligations.R485rdposReportsTransportErrors := by
  intro h s sl a x d hc hkind hidle f sent
  rw [exec_r485rdpos_of_configured hc hkind hidle]
  refine ⟨fun hx => ?_, fun hd hx => ?_⟩
  · rw [exchange_of_send_error hx, List.drop_one]
    rfl
  · rw [exchange_of_receive_error hd hx, takeDraw_takeDraw]
    rfl

/-- Settles O31: nine bytes begin with a position frame just when they are one. -/
theorem r485rdposReadsThePosition : Obligations.R485rdposReadsThePosition := by
  intro h s sl a d d' hc hkind hidle hd hd' f data calls
  rw [exec_r485rdpos_of_configured hc hkind hidle, exchange_of_ok hd hd', takeDraw_takeDraw]
  refine ⟨fun p hp => ?_, fun hne => ?_⟩
  · have hv : rs485Position data a = .ok p := rs485Position_eq_ok_iff.2 (hp ▸ List.prefix_rfl)
    rw [hv]
    rfl
  · obtain ⟨q, hq, hv⟩ : ∃ q, q ≠ .none ∧ rs485Position data a = .error q :=
      exists_error_of_no_positionFrame fun p hf => hne p (hf.eq_of_length (exactBytes_length _ 9 d').symm).symm
    exact ⟨q, hq, by rw [hv]; rfl⟩

/-- Settles O33: one call, and BUSY[h] set on an ok answer. -/
theorem r485rdposaSetsBusy : Obligations.R485rdposaSetsBusy := by
  intro h s sl a x d hc hkind hidle f calls
  refine ⟨fun hd => ?_, fun hx => ?_⟩
  · refine (onHandle_rs485_of_configured hc hkind hidle _).trans ?_
    have hbusy := setBusyOf_of_slotAt (s := takeDraw ⟨sl.binding.transport, .transmitAsync (positionRequest a)⟩ s)
      hc.1 true
    simp only [sendOn_eq, hd, sendStatus, hbusy, List.drop_one]
    rfl
  · refine (onHandle_rs485_of_configured hc hkind hidle _).trans ?_
    simp only [sendOn_eq, hx, sendStatus, List.drop_one]
    rfl

/-- Settles O34: the bytes decide the record only. -/
theorem r485rxcbClearsBusyAndDecodes : Obligations.R485rxcbClearsBusyAndDecodes := by
  intro h s sl a hc hkind hagent hin
  rw [exec_r485rxcb_of_configured hc hkind hagent hin]
  refine ⟨fun p extra hs => ?_, fun hs => ?_⟩
  · rw [rs485Position_eq_ok_iff.2 ⟨extra, hs.symm⟩]
    rfl
  · obtain ⟨q, hq, hv⟩ := exists_error_of_no_positionFrame fun p ⟨extra, hf⟩ => hs p extra hf.symm
    exact ⟨q, hq, by rw [hv]; rfl⟩

/-! ### What a codec operation leaves unchanged -/

/-- The response record or one mark is all that differs. -/
def ChangesOnlyTheOutcome (s t : State) : Prop :=
  (∃ r, t = { s with response := some r }) ∨ (∃ f, t = { s with faultMark := some f }) ∨
    ∃ q, t = { s with refusedMark := some q }

section Frame
variable {s t : State}

theorem changesOnlyTheOutcome_respond (r : Response) (s : State) : ChangesOnlyTheOutcome s (respond r s) :=
  .inl ⟨r, rfl⟩

theorem changesOnlyTheOutcome_stop (e : Stop) (s : State) : ChangesOnlyTheOutcome s (stop e s) := by
  cases e with
  | fault f => exact .inr (.inl ⟨f, rfl⟩)
  | refuse q => exact .inr (.inr ⟨q, rfl⟩)

theorem onHandle_changesOnlyTheOutcome {n : Needs} {h : Byte} {body : Slot → Byte → State}
    (hx : onHandle n h s body = .next t) (hbody : ∀ sl a, ChangesOnlyTheOutcome s (body sl a)) :
    ChangesOnlyTheOutcome s t := by
  obtain ⟨e, -, rfl⟩ | ⟨sl, a, -, -, rfl⟩ := onHandle_cases hx
  · exact changesOnlyTheOutcome_stop e s
  · exact hbody sl a

end Frame

/-- A codec operation on a handle stops, refuses or writes a record; so does CRC16 (41_rs485.md R150). -/
theorem exec_codec_changesOnlyTheOutcome {i : Instr} {s t : State} (hi : isCodec i = true) (hx : exec i s = .next t) :
    ChangesOnlyTheOutcome s t := by
  cases i <;> cases hi
  case crc16 =>
    obtain hin | hin := em (InputFits s)
    · cases (exec_crc16_of_inputFits hin).symm.trans hx
      exact changesOnlyTheOutcome_respond _ s
    · cases (exec_crc16_of_not_inputFits hin).symm.trans hx
      exact changesOnlyTheOutcome_stop (.refuse .inCap) s
  case r485enc fn reg val h =>
    refine onHandle_changesOnlyTheOutcome hx fun _ a => ?_
    cases funcOfCode fn <;> exact changesOnlyTheOutcome_respond _ s
  case r485chk fn reg val h =>
    refine onHandle_changesOnlyTheOutcome hx fun _ a => ?_
    match funcOfCode fn with
    | some .writeMulti => exact changesOnlyTheOutcome_stop (.refuse .writeMultiResponse) s
    | none | some .read | some .writeSingle => exact changesOnlyTheOutcome_respond _ s
  case canenc cmd len sel h =>
    refine onHandle_changesOnlyTheOutcome hx fun _ a => ?_
    cases canRequest s.params.canCodes a cmd len sel <;> exact changesOnlyTheOutcome_respond _ s
  case r485pos | candec =>
    exact onHandle_changesOnlyTheOutcome hx fun _ _ => changesOnlyTheOutcome_respond _ s

/-- Settles O46: CANRXCB writes a record where its checks pass, as CANDEC does. -/
theorem codecOperationsChangeOnlyTheOutcome : Obligations.CodecOperationsChangeOnlyTheOutcome := by
  rintro i s t (hi | ⟨h, rfl⟩) hx
  · exact exec_codec_changesOnlyTheOutcome hi hx
  · exact onHandle_changesOnlyTheOutcome hx fun _ _ => changesOnlyTheOutcome_respond _ s

end Sys2Proof.Machine
end

section
/-! ## Proofs of the CAN family
An input decodes to a position exactly when it begins with that position's report; a request of the contract is one frame, any other is rejected. -/

namespace Sys2Proof.Machine

/-! ### Requests outside the contract (42_can.md R192) -/

theorem commandOfSelector_eq_none_iff {b : Byte} : commandOfSelector b = none ↔ 5 < b.toNat := by
  rw [← not_le, ← exists_selectorOf_eq_iff]
  constructor
  · rintro hb ⟨c, rfl⟩
    simp at hb
  · intro hb
    exact Option.eq_none_iff_forall_ne_some.2 fun c hc => hb ⟨c, selectorOf_of_commandOfSelector hc⟩

theorem canPayload_eq_none {len : Byte} (hlen : len ∉ [3#8, 4#8, 5#8]) (sel : Half) : canPayload len sel = none := by
  simp only [List.mem_cons, List.not_mem_nil, or_false, not_or] at hlen
  obtain ⟨h3, h4, h5⟩ := hlen
  rw [canPayload, if_neg h3, if_neg h4, if_neg h5]

/-- The selector is checked before the length (42_can.md R192). -/
theorem canRequest_eq_error (k : CanCodes) (a : Byte) {cmd len : Byte} (sel : Half)
    (hbad : 5 < cmd.toNat ∨ len ∉ [3#8, 4#8, 5#8]) :
    canRequest k a cmd len sel = .error (if 5 < cmd.toNat then .badCommand else .badLength) := by
  unfold canRequest
  cases hcmd : commandOfSelector cmd with
  | none => rw [if_pos (commandOfSelector_eq_none_iff.1 hcmd)]
  | some c =>
    have hle : ¬ 5 < cmd.toNat := fun hlt => nomatch hcmd.symm.trans (commandOfSelector_eq_none_iff.2 hlt)
    rw [canPayload_eq_none (hbad.resolve_left hle), if_neg hle]

/-! ### The position of a report (42_can.md R194) -/

theorem le32_eq_be32 (b0 b1 b2 b3 : Byte) : le32 b0 b1 b2 b3 = be32 b3 b2 b1 b0 := rfl

theorem positionReport_le32 (a b0 b1 b2 b3 : Byte) :
    positionReport a (le32 b0 b1 b2 b3) = canReportFrame a b0 b1 b2 b3 := by
  have hbytes := bigEndianBytes_be32 b3 b2 b1 b0
  simp only [bigEndianBytes, List.cons.injEq, and_true] at hbytes
  obtain ⟨h3, h2, h1, h0⟩ := hbytes
  rw [positionReport, le32_eq_be32, h0, h1, h2, h3]

theorem toNat_append_byte {n : Nat} (v : BitVec n) (b : Byte) : (v ++ b).toNat = 2 ^ 8 * v.toNat + b.toNat := by
  rw [BitVec.toNat_append, ← Nat.shiftLeft_add_eq_or_of_lt b.isLt, Nat.shiftLeft_eq, Nat.mul_comm]

theorem toNat_le32 (b0 b1 b2 b3 : Byte) : (le32 b0 b1 b2 b3).toNat =
    b0.toNat + 2 ^ 8 * b1.toNat + 2 ^ 16 * b2.toNat + 2 ^ 24 * b3.toNat := by
  simp only [le32, toNat_append_byte]
  omega

theorem positionReport_length (a : Byte) (p : Position) : (positionReport a p).length = 7 := rfl

/-- A position comes exactly from an input that begins with its report (42_can.md R194). -/
theorem canReport_eq_ok_iff {f : List Byte} {a : Byte} {p : Position} :
    canReport f a = .ok p ↔ positionReport a p <+: f := by
  constructor
  · intro hv
    unfold canReport at hv
    split_ifs at hv with hlen haddr hlength hcommand
    obtain rfl := Except.ok.inj hv
    rw [not_not] at haddr hlength hcommand
    rw [positionReport_le32, canReportFrame, ← haddr, ← hlength, ← hcommand]
    match f, Nat.le_of_not_lt hlen with
    | b0 :: b1 :: b2 :: b3 :: b4 :: b5 :: b6 :: extra, _ => exact ⟨extra, rfl⟩
  · rintro ⟨extra, rfl⟩
    have hv : canReport (positionReport a p ++ extra) a =
        .ok (be32 (p.extractLsb' 24 8) (p.extractLsb' 16 8) (p.extractLsb' 8 8) (p.extractLsb' 0 8)) := by
      simp [canReport, positionReport, canReportFrame, byteAt, le32_eq_be32]
    rw [hv, be32_bigEndianBytes]

/-- An input that begins with no report is rejected with a reason (42_can.md R194). -/
theorem exists_error_of_no_positionReport {f : List Byte} {a : Byte} (hf : ∀ p, ¬ positionReport a p <+: f) :
    ∃ q, q ≠ .none ∧ canReport f a = .error q := by
  cases hv : canReport f a with
  | ok p => exact absurd (canReport_eq_ok_iff.1 hv) (hf p)
  | error q => exact ⟨q, fun hq => canReport_ne_none f a (hq ▸ hv), rfl⟩

/-! ### Reports with a flipped bit (42_can.md R198) -/

theorem byteAt_flipBit_ne {f : List Byte} {i k : Nat} (hi : i < f.length) (hk : k < 8) :
    byteAt (flipBit f i k) i ≠ byteAt f i := by
  intro h
  rw [byteAt_eq_getElem (hi.trans_eq (flipBit_length f i k).symm)] at h
  have hbit := congrArg (BitVec.getLsbD · k) h
  simp [flipBit, hk] at hbit

/-- Bytes 0 to 2 of a report do not depend on the position (30_encoding.md R104). -/
theorem not_positionReport_prefix_flipBit_header {a : Byte} {p p' : Position} {i k : Nat} (hi : i < 3) (hk : k < 8) :
    ¬ positionReport a p' <+: flipBit (positionReport a p) i k := by
  intro hf
  have hsame : byteAt (positionReport a p') i = byteAt (positionReport a p) i := by
    interval_cases i <;> rfl
  have heq : positionReport a p' = flipBit (positionReport a p) i k :=
    hf.eq_of_length (flipBit_length (positionReport a p) i k).symm
  have hlt : i < (positionReport a p).length := Nat.lt_trans hi (by rw [positionReport_length]; decide)
  exact byteAt_flipBit_ne hlt hk (heq ▸ hsame)

/-- Bytes 3 to 6 of a report are any four bytes (30_encoding.md R104). -/
theorem exists_flipBit_positionReport_eq {a : Byte} {p : Position} {i k : Nat} (hi : 3 ≤ i) (hi' : i < 7) :
    ∃ p', flipBit (positionReport a p) i k = positionReport a p' := by
  obtain ⟨b0, b1, b2, b3, hf⟩ :
      ∃ b0 b1 b2 b3, flipBit (positionReport a p) i k = canReportFrame a b0 b1 b2 b3 := by
    interval_cases i <;> exact ⟨_, _, _, _, rfl⟩
  exact ⟨le32 b0 b1 b2 b3, hf.trans (positionReport_le32 a b0 b1 b2 b3).symm⟩

/-! ### The operations on a handle with an address -/

section Configured
variable {s : State} {h : Byte} {sl : Slot} {a : Byte}

theorem exec_canenc_of_canRequest_error {cmd len : Byte} {sel : Half} {q : Reason} (hc : Configured s h sl a)
    (hq : canRequest s.params.canCodes a cmd len sel = .error q) :
    exec (.canenc cmd len sel h) s = .next (respond (withFrame [] (rejectRecord .encode q)) s) := by
  simp only [exec, execCanenc, onHandle_of_configured hc, hq]

theorem exec_candec_of_configured (hc : Configured s h sl a) (hin : InputFits s) :
    exec (.candec h) s = .next (respond (positionRecord (canReport s.inPort a)) s) :=
  onHandle_input_of_configured hc hin _

theorem exec_candec_of_positionReport {p : Position} (hc : Configured s h sl a) (hin : InputFits s)
    (hf : positionReport a p <+: s.inPort) :
    exec (.candec h) s = .next (respond (withPos p okRecord) s) := by
  rw [exec_candec_of_configured hc hin, canReport_eq_ok_iff.2 hf]
  rfl

theorem exec_candec_of_no_positionReport (hc : Configured s h sl a) (hin : InputFits s)
    (hf : ∀ p, ¬ positionReport a p <+: s.inPort) :
    ∃ q, q ≠ .none ∧
      exec (.candec h) s = .next (respond (withPos Config.sentinel (rejectRecord .invalid q)) s) := by
  obtain ⟨q, hq, hv⟩ := exists_error_of_no_positionReport hf
  exact ⟨q, hq, by rw [exec_candec_of_configured hc hin, hv]; rfl⟩

/-- A delivery asks for the host, an input that fits, the handle, its address and a CAN transport. -/
theorem exec_canrxcb_of_configured (hc : Configured s h sl a) (hkind : sl.binding.kind = .can)
    (hagent : s.agent = .host) (hin : InputFits s) :
    exec (.canrxcb h) s = .next (respond (positionRecord (canReport s.inPort a)) s) :=
  onHandle_of_ok (precheck_ok_iff.2
    ⟨hc.1, fun _ => hagent, fun _ => hin, fun _ hk => hkind.trans (Option.some.inj hk), nofun⟩) hc.2

/-- A CAN transmission asks for the handle, its address and a CAN transport. -/
theorem onHandle_can_of_configured (hc : Configured s h sl a) (hkind : sl.binding.kind = .can)
    (body : Slot → Byte → State) : onHandle { kind := some .can } h s body = .next (body sl a) :=
  onHandle_of_ok (precheck_ok_iff.2 ⟨hc.1, nofun, nofun, fun _ hk => hkind.trans (Option.some.inj hk), nofun⟩) hc.2

section Send
variable {i : Instr} {cmd len : Byte} {sel : Half} (hi : canRequest? i = some (cmd, len, sel, h))
  (hc : Configured s h sl a) (hkind : sl.binding.kind = .can)
include hi hc hkind

theorem exec_canSend_of_canRequest_error {q : Reason} (hq : canRequest s.params.canCodes a cmd len sel = .error q) :
    exec i s = .next (respond (withFrame [] (rejectRecord .encode q)) s) := by
  simp only [exec_of_canRequest? hi, sendRequest, onHandle_can_of_configured hc hkind, hq]

variable {f : List Byte} (hf : canRequest s.params.canCodes a cmd len sel = .ok f)
include hf

theorem exec_canSend_of_answer_ok {d : List Byte} (hd : answerAt s 0 = .ok d) :
    exec i s = .next (respond (withCanLabel a (withFrame f okRecord))
      (takeDraw ⟨sl.binding.transport, .canTransmit f len (a.setWidth 11) 0#1 0#1⟩ s)) := by
  simp only [exec_of_canRequest? hi, sendRequest, onHandle_can_of_configured hc hkind, hf, sendOn_eq, hd, sendStatus]

theorem exec_canSend_of_answer_error {x : Byte} (hx : answerAt s 0 = .error x) :
    exec i s = .next (respond (withCanLabel a (withFrame f (transportRecord .txFail x)))
      (takeDraw ⟨sl.binding.transport, .canTransmit f len (a.setWidth 11) 0#1 0#1⟩ s)) := by
  simp only [exec_of_canRequest? hi, sendRequest, onHandle_can_of_configured hc hkind, hf, sendOn_eq, hx, sendStatus]

end Send

end Configured

/-- Settles O38: both operations meet the rejected request before they would send it. -/
theorem canContractViolationsAreRejected : Obligations.CanContractViolationsAreRejected := by
  intro s h sl a cmd len sel hc hbad rejected
  have hq := canRequest_eq_error s.params.canCodes a sel hbad
  exact ⟨exec_canenc_of_canRequest_error hc hq, fun hkind => exec_canSend_of_canRequest_error rfl hc hkind hq⟩

/-- Settles O40: the position of the report at the head of IN, or a reject. -/
theorem candecGivesThePositionOrTheSentinel : Obligations.CandecGivesThePositionOrTheSentinel := by
  intro s h sl a hc hin
  exact ⟨fun p extra hs => exec_candec_of_positionReport hc hin ⟨extra, hs.symm⟩,
    fun hs => exec_candec_of_no_positionReport hc hin fun p ⟨extra, hf⟩ => hs p extra hf.symm⟩

theorem positionRecord_ite (c : Prop) [Decidable c] (q : Reason) (v : Except Reason Position) :
    positionRecord (if c then .error q else v) =
      if c then withPos Config.sentinel (rejectRecord .invalid q) else positionRecord v := by
  split_ifs <;> rfl

/-- Settles O41: the record of each check in turn. -/
theorem candecReportsTheFirstFailure : Obligations.CandecReportsTheFirstFailure := by
  intro s h sl a hc hin f inv
  refine ⟨le32 (byteAt f 3) (byteAt f 4) (byteAt f 5) (byteAt f 6), toNat_le32 _ _ _ _, ?_⟩
  rw [exec_candec_of_configured hc hin, canReport]
  simp only [positionRecord_ite]
  rfl

/-- Settles O42: a flip in the header leaves no report, one in the payload another report. -/
theorem canReportFlipsInHeaderAndPayload : Obligations.CanReportFlipsInHeaderAndPayload := by
  intro s h sl a p i k hc hin hk hs
  constructor
  · intro hi
    exact exec_candec_of_no_positionReport hc hin fun p' => hs ▸ not_positionReport_prefix_flipBit_header hi hk
  · intro hi hi'
    obtain ⟨p', hp'⟩ := exists_flipBit_positionReport_eq (a := a) (p := p) (k := k) hi hi'
    refine ⟨p', ?_, exec_candec_of_positionReport hc hin (hs ▸ hp' ▸ List.prefix_rfl)⟩
    rintro rfl
    exact byteAt_flipBit_ne (f := positionReport a p') hi' hk (by rw [hp'])

/-- Settles O43: both operations write the record of the same decoding. -/
theorem canrxcbDecodesTheDelivery : Obligations.CanrxcbDecodesTheDelivery := by
  intro s h sl a hc hkind hagent hin
  have heq : exec (.canrxcb h) s = exec (.candec h) s :=
    (exec_canrxcb_of_configured hc hkind hagent hin).trans (exec_candec_of_configured hc hin).symm
  exact ⟨heq, fun p extra hs => heq.trans (exec_candec_of_positionReport hc hin ⟨extra, hs.symm⟩)⟩

/-- Settles O44: the request of the length asked for goes to the host, and its answer decides the status. -/
theorem cansendTransmitsTheFrame : Obligations.CansendTransmitsTheFrame := by
  intro i cmd len sel h s sl a x d hi hc hkind hcmd hlen code f calls
  have hf : canRequest s.params.canCodes a cmd len sel = .ok f := by
    obtain ⟨c, rfl⟩ := exists_selectorOf_eq_iff.2 hcmd
    rw [canRequest_selectorOf _ a c hlen, ← toList_getD_selectorOf]
    rfl
  have holen : len.setWidth 4 = BitVec.ofNat 4 f.length := by
    simp only [List.mem_cons, List.not_mem_nil, or_false] at hlen
    obtain rfl | rfl | rfl := hlen <;> rfl
  simp only [calls, List.drop_one, holen, ← setWidth_eleven_eq_append]
  exact ⟨exec_canSend_of_answer_ok hi hc hkind hf, exec_canSend_of_answer_error hi hc hkind hf⟩

end Sys2Proof.Machine
end

section
/-! ## Proofs of the configuration family
A transaction stops with a fault or writes its record after at most two calls; a spelling performs what its expansion performs; SETADDR writes one slot. -/

namespace Sys2Proof.Machine

/-! ### What a transaction leaves unchanged (43_config.md R224) -/

/-- A record after at most two host calls, one draw each, is all that differs. -/
def RespondsAfterCalls (s t : State) : Prop :=
  ∃ (r : Response) (made : List HostCall), made.length ≤ 2 ∧
    t = { s with response := some r, calls := s.calls ++ made, draws := s.draws + made.length,
                 answers := s.answers.drop made.length }

section Frame
variable {s t : State}

theorem respondsAfterCalls_of_no_call (r : Response) (s : State) : RespondsAfterCalls s (respond r s) :=
  ⟨r, [], Nat.zero_le 2, by rw [List.append_nil]; rfl⟩

theorem respondsAfterCalls_of_one_call (r : Response) (c : HostCall) (s : State) :
    RespondsAfterCalls s (respond r (takeDraw c s)) :=
  ⟨r, [c], Nat.le_succ 1, by rw [List.length_singleton, List.drop_one]; rfl⟩

theorem respondsAfterCalls_of_two_calls (r : Response) (c c' : HostCall) (s : State) :
    RespondsAfterCalls s (respond r (takeDraw c' (takeDraw c s))) :=
  ⟨r, [c, c'], le_rfl, by rw [takeDraw_takeDraw]; rfl⟩

theorem exchange_respondsAfterCalls (ch n : Nat) (p : HostPrimitive) (txFail rxFail : Byte → Response)
    (received : List Byte → Response) (s : State) :
    RespondsAfterCalls s (exchange ch n p txFail rxFail received s) := by
  cases h0 : answerAt s 0 with
  | error x =>
    rw [exchange_of_send_error h0]
    exact respondsAfterCalls_of_one_call ..
  | ok d =>
    cases h1 : answerAt s 1 with
    | error x =>
      rw [exchange_of_receive_error h0 h1]
      exact respondsAfterCalls_of_two_calls ..
    | ok d' =>
      rw [exchange_of_ok h0 h1]
      exact respondsAfterCalls_of_two_calls ..

/-- Without IN the checks stop with a fault only, since Q_IN_CAP is about IN (60_exceptions.md R245). -/
theorem onHandle_faults_or_respondsAfterCalls {n : Needs} {h : Byte} {body : Slot → Byte → State}
    (hn : n.input = false) (hbody : ∀ sl a, RespondsAfterCalls s (body sl a))
    (hx : onHandle n h s body = .next t) : (∃ f, t = raiseFault f s) ∨ RespondsAfterCalls s t := by
  obtain ⟨e, he, rfl⟩ | ⟨sl, a, -, -, rfl⟩ := onHandle_cases hx
  · obtain ⟨f, rfl⟩ | ⟨hin, -⟩ := precheckAddr_error_cases he
    · exact .inl ⟨f, rfl⟩
    · exact nomatch hn.symm.trans hin
  · exact .inr (hbody sl a)

theorem writeRoundTrip_faults_or_respondsAfterCalls {reg val : Half} {h : Byte}
    (hx : writeRoundTrip reg val h s = .next t) : (∃ f, t = raiseFault f s) ∨ RespondsAfterCalls s t :=
  onHandle_faults_or_respondsAfterCalls rfl
    (fun sl _ => exchange_respondsAfterCalls sl.binding.transport writeAckLength _ _ _ _ s) hx

theorem execR485rdpos_faults_or_respondsAfterCalls {h : Byte}
    (hx : execR485rdpos h s = .next t) : (∃ f, t = raiseFault f s) ∨ RespondsAfterCalls s t :=
  onHandle_faults_or_respondsAfterCalls rfl
    (fun sl _ => exchange_respondsAfterCalls sl.binding.transport 9 _ _ _ _ s) hx

/-- A rejected request makes no call (42_can.md R192), a sent one makes one (R195). -/
theorem sendRequest_faults_or_respondsAfterCalls {cmd len : Byte} {sel : Half} {h : Byte}
    (hx : sendRequest cmd len sel h s = .next t) : (∃ f, t = raiseFault f s) ∨ RespondsAfterCalls s t := by
  refine onHandle_faults_or_respondsAfterCalls rfl (fun sl a => ?_) hx
  cases canRequest s.params.canCodes a cmd len sel with
  | error q => exact respondsAfterCalls_of_no_call _ s
  | ok f =>
    simp only [sendOn_eq]
    cases sendStatus (answerAt s 0) <;> exact respondsAfterCalls_of_one_call ..

end Frame

/-- Settles O47: each transaction is a register write, a CAN request or the blocking position read. -/
theorem transactionsKeepTheHandles : Obligations.TransactionsKeepTheHandles := by
  rintro i s t (hw | hc | ⟨h, rfl⟩) hx
  · obtain ⟨_, hp⟩ := Option.isSome_iff_exists.1 hw
    exact writeRoundTrip_faults_or_respondsAfterCalls ((exec_of_registerWrite? hp s).symm.trans hx)
  · obtain ⟨_, hp⟩ := Option.isSome_iff_exists.1 hc
    exact sendRequest_faults_or_respondsAfterCalls ((exec_of_canRequest? hp s).symm.trans hx)
  · exact execR485rdpos_faults_or_respondsAfterCalls hx

/-! ### A spelling and its expansion (43_config.md R220 to R222) -/

section Expansion
variable {i : Instr} {h : Byte}

theorem expand_of_registerWrite? {reg val : Half} (hi : registerWrite? i = some (reg, val, h)) :
    expand i = .r485wr reg val h := by
  cases i <;> cases hi <;> rfl

theorem expand_of_canRequest? {cmd len : Byte} {sel : Half} (hi : canRequest? i = some (cmd, len, sel, h)) :
    expand i = .cansend cmd len sel h := by
  cases i <;> cases hi <;> rfl

/-- An operation that is neither a register write nor a CAN request is its own expansion. -/
theorem expand_eq_self (hw : registerWrite? i = none) (hc : canRequest? i = none) : expand i = i := by
  cases i with
  | r485wr | set485addr | set485baud | set485mode | set485ret | set485zero | set485dir => cases hw
  | cansend | canget | cansetid | cansetbaud | cansetmode | cansetret | cansetzero => cases hc
  | _ => rfl

end Expansion

@[simp] theorem registerWrite?_expand (i : Instr) : registerWrite? (expand i) = registerWrite? i := by
  cases i <;> rfl

@[simp] theorem encode_expand (i : Instr) : encode (expand i) = encode i := by
  cases i <;> rfl

@[simp] theorem exec_expand (i : Instr) (s : State) : exec (expand i) s = exec i s := by
  cases hw : registerWrite? i with
  | some p => rw [expand_of_registerWrite? hw, exec_of_registerWrite? hw, exec_of_registerWrite? rfl]
  | none =>
    cases hc : canRequest? i with
    | some p => rw [expand_of_canRequest? hc, exec_of_canRequest? hc, exec_of_canRequest? rfl]
    | none => rw [expand_eq_self hw hc]

/-- Settles O8: both spellings of a word perform the same register write or send the same request. -/
theorem configCommandsAreTheirExpansions : Obligations.ConfigCommandsAreTheirExpansions := fun i s =>
  ⟨encode_expand i, exec_expand i s, by rw [registerWrite?_expand], fun _ => expand_of_registerWrite?,
    fun _ => expand_of_canRequest?⟩

/-! ### SETADDR on an idle handle (43_config.md R223) -/

theorem setAddrOf_of_slotAt {s : State} {h : Byte} {sl : Slot} (hsl : slotAt s h = some sl) (a : Byte) :
    setAddrOf h a s = { s with slots := s.slots.set h.toNat { sl with addr := some a } } := by
  unfold slotAt at hsl
  simp only [setAddrOf, List.modify_eq_set_getElem?, hsl]
  rfl

theorem exec_setaddr_of_idle {s : State} {h : Byte} {sl : Slot} (hsl : slotAt s h = some sl)
    (hidle : sl.busy = false) (a : Byte) :
    exec (.setaddr a h) s =
      if a = 0#8 then .next (raiseFault .addrZero s) else .next (respond okRecord (setAddrOf h a s)) := by
  have hp : precheck (needsOf (.setaddr a h)) h s = .ok sl :=
    precheck_ok_iff.2 ⟨hsl, nofun, nofun, nofun, fun _ => hidle⟩
  rw [exec_setaddr, hp]

/-- Settles O45: the checks ask for an idle handle only, and zero is told from the other addresses. -/
theorem setaddrWritesTheAddress : Obligations.SetaddrWritesTheAddress := by
  intro s h a sl hsl hidle
  rw [exec_setaddr_of_idle hsl hidle]
  refine ⟨fun ha => ?_, fun ha => ?_⟩
  · rw [if_neg ha, setAddrOf_of_slotAt hsl]
    rfl
  · rw [if_pos ha]
    rfl

end Sys2Proof.Machine
end

section
/-! ## Proofs of the exceptions family
Every operation answers a next state; an operation that ends with a mark has stopped; the checks and the body of an operation on one handle commute with replacing another handle's slot. -/

namespace Sys2Proof.Machine

/-! ### No failure is fatal (60_exceptions.md R240) -/

theorem exec_setaddr_next (a h : Byte) (s : State) : ∃ t, exec (.setaddr a h) s = .next t := by
  rw [exec_setaddr]
  cases precheck (needsOf (.setaddr a h)) h s with
  | error e => exact ⟨_, rfl⟩
  | ok sl =>
    dsimp only
    split_ifs <;> exact ⟨_, rfl⟩

/-- An operation is CRC16, SETADDR, or one that reads ADDR[h] after its common checks. -/
theorem exec_next (i : Instr) (s : State) : ∃ t, exec i s = .next t := by
  cases hi : i.handle? with
  | none =>
    obtain rfl := eq_crc16_of_handle?_eq_none hi
    obtain ⟨t, ht, -⟩ := exec_crc16_withSlots s s.slots
    exact ⟨t, ht⟩
  | some h =>
    cases hr : readsAddress i with
    | true =>
      obtain ⟨body, hbody⟩ := exec_onHandle hi hr s
      exact hbody ▸ onHandle_next (needsOf i) h s body
    | false =>
      obtain rfl | ⟨a, h, rfl⟩ := eq_of_not_readsAddress hr
      · cases hi
      · exact exec_setaddr_next a h s

theorem runWord_next (w : OpWord) (s : State) : ∃ t, runWord w s = .next t := by
  cases hd : decode w with
  | error e => exact ⟨_, runWord_of_decode_error hd s⟩
  | ok i => exact runWord_of_decode_ok hd s ▸ exec_next i s

/-- Settles O49: an operation answers a next state, and a step waits, resets or runs one word. -/
theorem everyStepAnswersANextState : Obligations.EveryStepAnswersANextState := by
  refine ⟨exec_next, fun s => ?_⟩
  match hp : s.pending with
  | [] => exact ⟨s, by simp only [step, hp]⟩
  | .reset :: rest => exact ⟨resetBlock (dropEvent s), by simp only [step, hp, performEvent]⟩
  | .op r :: rest =>
    obtain ⟨t, ht⟩ := runWord_next r.word { s with pending := rest, agent := r.agent, inPort := r.input }
    exact ⟨retire t, by rw [step_of_op hp, ht, retireAnswer_next]⟩

/-! ### A fault or a refusal is the one mark (60_exceptions.md R248) -/

/-- An operation that completes sets no mark. -/
theorem Effect.final {i : Instr} {s u : State} (hu : Effect i s u) (hs : s.Final) : u.Final :=
  ⟨hu.faultMark_eq.trans hs.1, hu.refusedMark_eq.trans hs.2⟩

/-- Settles O51: an operation that ends marked did not complete, so it stopped. -/
theorem faultOrRefusalChangesOnlyTheMark : Obligations.FaultOrRefusalChangesOnlyTheMark := by
  intro i s t hs hx ht
  cases exec_outcome hx with
  | @stopped e _ =>
    cases e with
    | fault f => exact .inl ⟨f, rfl⟩
    | refuse q => exact .inr ⟨q, rfl⟩
  | completed hu => exact absurd (hu.final hs) ht

/-! ### Different handles share no state (60_exceptions.md R255) -/

/-- The state with another slot k. -/
def State.withSlot (k : Nat) (x : Slot) (s : State) : State := { s with slots := s.slots.set k x }

@[simp] theorem State.withSlot_params (k : Nat) (x : Slot) (s : State) : (s.withSlot k x).params = s.params := rfl

theorem withSlots_set_eq_withSlot {s t : State} (hslots : t.slots = s.slots) (k : Nat) (x : Slot) :
    t.withSlots (s.slots.set k x) = t.withSlot k x := by
  rw [← hslots]
  rfl

/-- An operation that does the same whatever slot k is, and leaves slot k as it finds it. -/
def IgnoresSlot (k : Nat) (op : State → Answer) : Prop :=
  ∀ s x, ∃ t, op s = .next t ∧ op (s.withSlot k x) = .next (t.withSlot k x)

/-- No operation writes the slot of a handle that it does not name. -/
theorem Effect.slots_getElem? {i : Instr} {s u : State} {k : Nat} (hu : Effect i s u)
    (hi : ∀ h, i.handle? = some h → h.toNat ≠ k) : u.slots[k]? = s.slots[k]? := by
  cases hu with
  | none | oneCall | twoCalls => rfl
  | setBusy _ h | clearBusy h | setAddr h =>
    subst h
    exact List.getElem?_modify_ne _ _ (hi _ rfl)

theorem exec_slots_getElem? {i : Instr} {s t : State} {k : Nat} (hx : exec i s = .next t)
    (hi : ∀ h, i.handle? = some h → h.toNat ≠ k) : t.slots[k]? = s.slots[k]? := by
  cases exec_outcome hx with
  | stopped => rw [stop_slots]
  | completed hu => exact hu.slots_getElem? hi

theorem stop_withSlot (e : Stop) (k : Nat) (x : Slot) (s : State) :
    stop e (s.withSlot k x) = (stop e s).withSlot k x := by
  cases e <;> rfl

theorem sendOn_withSlot (ch : Nat) (p : HostPrimitive) (k : Nat) (x : Slot) (s : State) :
    sendOn ch p (s.withSlot k x) = ((sendOn ch p s).1, (sendOn ch p s).2.withSlot k x) := rfl

theorem receiveOn_withSlot (ch n k : Nat) (x : Slot) (s : State) :
    receiveOn ch n (s.withSlot k x) = ((receiveOn ch n s).1, (receiveOn ch n s).2.withSlot k x) := rfl

theorem exchange_withSlot (ch n : Nat) (p : HostPrimitive) (txFail rxFail : Byte → Response)
    (received : List Byte → Response) (k : Nat) (x : Slot) (s : State) :
    exchange ch n p txFail rxFail received (s.withSlot k x) =
      (exchange ch n p txFail rxFail received s).withSlot k x := by
  rw [exchange, exchange, sendOn_withSlot]
  rcases sendOn ch p s with ⟨_ | e, s₁⟩
  · dsimp only
    rw [receiveOn_withSlot]
    rcases receiveOn ch n s₁ with ⟨e | bytes, s₂⟩ <;> rfl
  · rfl

/-- An update of one entry and a replacement of another commute. -/
theorem modify_set_comm {α : Type} {j k : Nat} (hjk : j ≠ k) (f : α → α) (x : α) (l : List α) :
    (l.set k x).modify j f = (l.modify j f).set k x := by
  rw [List.modify_eq_set_getElem?, List.modify_eq_set_getElem?, List.getElem?_set_ne hjk.symm]
  cases l[j]? with
  | none => rfl
  | some y => exact List.set_comm _ _ hjk.symm

section OtherHandle
variable {h : Byte} {k : Nat}

theorem setBusyOf_withSlot (hk : h.toNat ≠ k) (b : Bool) (x : Slot) (s : State) :
    setBusyOf h b (s.withSlot k x) = (setBusyOf h b s).withSlot k x := by
  simp only [setBusyOf, State.withSlot, modify_set_comm hk]

theorem setAddrOf_withSlot (hk : h.toNat ≠ k) (a : Byte) (x : Slot) (s : State) :
    setAddrOf h a (s.withSlot k x) = (setAddrOf h a s).withSlot k x := by
  simp only [setAddrOf, State.withSlot, modify_set_comm hk]

/-- The common checks read the slot of their own handle only. -/
theorem precheck_withSlot (hk : h.toNat ≠ k) (n : Needs) (x : Slot) (s : State) :
    precheck n h (s.withSlot k x) = precheck n h s := by
  have hslot : slotAt (s.withSlot k x) h = slotAt s h := List.getElem?_set_ne hk.symm
  simp only [precheck, hslot]
  rfl

theorem onHandle_ignoresSlot (hk : h.toNat ≠ k) (n : Needs) {body : State → Slot → Byte → State}
    (hbody : ∀ s x sl a, body (s.withSlot k x) sl a = (body s sl a).withSlot k x) :
    IgnoresSlot k fun s => onHandle n h s (body s) := by
  intro s x
  have hsame : precheckAddr n h (s.withSlot k x) = precheckAddr n h s := by
    simp only [precheckAddr, precheck_withSlot hk]
  simp only [onHandle, hsame]
  cases precheckAddr n h s with
  | error e => exact ⟨_, rfl, congrArg _ (stop_withSlot e k x s)⟩
  | ok p => exact ⟨_, rfl, congrArg _ (hbody s x p.1 p.2)⟩

theorem exec_codec_ignoresSlot {i : Instr} (hc : isCodec i = true) (hi : i.handle? = some h) (hk : h.toNat ≠ k) :
    IgnoresSlot k (exec i) := by
  obtain ⟨body, hbody, hslots⟩ := exec_codec hc hi
  rw [funext hbody]
  refine onHandle_ignoresSlot hk (needsOf i) fun s x _ a => ?_
  obtain ⟨hkeep, hwith⟩ := hslots a s (s.slots.set k x)
  exact hwith.trans (withSlots_set_eq_withSlot hkeep k x)

theorem writeRoundTrip_ignoresSlot (hk : h.toNat ≠ k) (reg val : Half) : IgnoresSlot k (writeRoundTrip reg val h) :=
  onHandle_ignoresSlot hk _ fun s x sl _ => exchange_withSlot sl.binding.transport writeAckLength _ _ _ _ k x s

theorem execR485rdpos_ignoresSlot (hk : h.toNat ≠ k) : IgnoresSlot k (execR485rdpos h) :=
  onHandle_ignoresSlot hk _ fun s x sl _ => exchange_withSlot sl.binding.transport 9 _ _ _ _ k x s

theorem sendRequest_ignoresSlot (hk : h.toNat ≠ k) (cmd len : Byte) (sel : Half) :
    IgnoresSlot k (sendRequest cmd len sel h) := by
  refine onHandle_ignoresSlot hk _ fun s x sl a => ?_
  simp only [State.withSlot_params, sendOn_withSlot]
  cases canRequest s.params.canCodes a cmd len sel with
  | error q => rfl
  | ok frame =>
    dsimp only
    rcases sendOn sl.binding.transport _ s with ⟨_ | e, s₁⟩ <;> rfl

/-- R485RDPOSA sets BUSY in its own slot only (41_rs485.md R163). -/
theorem execR485rdposa_ignoresSlot (hk : h.toNat ≠ k) : IgnoresSlot k (execR485rdposa h) := by
  refine onHandle_ignoresSlot hk _ fun s x sl a => ?_
  simp only [sendOn_withSlot]
  rcases sendOn sl.binding.transport _ s with ⟨_ | e, s₁⟩
  · exact congrArg (respond _) (setBusyOf_withSlot hk true x s₁)
  · rfl

/-- R485RXCB clears BUSY in its own slot only (41_rs485.md R164). -/
theorem execR485rxcb_ignoresSlot (hk : h.toNat ≠ k) : IgnoresSlot k (execR485rxcb h) :=
  onHandle_ignoresSlot hk _ fun s x _ _ => congrArg _ (setBusyOf_withSlot hk false x s)

theorem execCanrxcb_ignoresSlot (hk : h.toNat ≠ k) : IgnoresSlot k (execCanrxcb h) :=
  onHandle_ignoresSlot hk _ fun _ _ _ _ => rfl

/-- SETADDR writes ADDR in its own slot only (43_config.md R223). -/
theorem execSetaddr_ignoresSlot (hk : h.toNat ≠ k) (a : Byte) : IgnoresSlot k (execSetaddr a h) := by
  intro s x
  simp only [execSetaddr, precheck_withSlot hk]
  cases precheck { idle := true } h s with
  | error e => exact ⟨_, rfl, congrArg _ (stop_withSlot e k x s)⟩
  | ok sl =>
    by_cases ha : a = 0#8
    · exact ⟨_, if_pos ha, if_pos ha⟩
    · refine ⟨_, if_neg ha, (if_neg ha).trans ?_⟩
      rw [setAddrOf_withSlot hk]
      rfl

end OtherHandle

/-- CRC16 uses no slot at all (40_crc.md R130). -/
theorem exec_crc16_ignoresSlot (k : Nat) : IgnoresSlot k (exec .crc16) := by
  intro s x
  obtain ⟨t, ht, hslots, ht'⟩ := exec_crc16_withSlots s (s.slots.set k x)
  exact ⟨t, ht, ht'.trans (congrArg _ (withSlots_set_eq_withSlot hslots k x))⟩

/-- Every operation, by what it shares with others (43_config.md R221, R222). -/
theorem exec_ignoresSlot {i : Instr} {k : Nat} (hi : ∀ h, i.handle? = some h → h.toNat ≠ k) :
    IgnoresSlot k (exec i) := by
  cases i with
  | crc16 => exact exec_crc16_ignoresSlot k
  | r485enc | r485chk | r485pos | canenc | candec => exact exec_codec_ignoresSlot rfl rfl (hi _ rfl)
  | r485rdpos h => exact execR485rdpos_ignoresSlot (hi h rfl)
  | r485rdposa h => exact execR485rdposa_ignoresSlot (hi h rfl)
  | r485rxcb h => exact execR485rxcb_ignoresSlot (hi h rfl)
  | canrxcb h => exact execCanrxcb_ignoresSlot (hi h rfl)
  | setaddr a h => exact execSetaddr_ignoresSlot (hi h rfl) a
  | r485wr | set485addr | set485baud | set485mode | set485ret | set485zero | set485dir =>
    rw [funext (exec_of_registerWrite? rfl)]
    exact writeRoundTrip_ignoresSlot (hi _ rfl) _ _
  | cansend | canget | cansetid | cansetbaud | cansetmode | cansetret | cansetzero =>
    rw [funext (exec_of_canRequest? rfl)]
    exact sendRequest_ignoresSlot (hi _ rfl) _ _ _

/-- Settles O57: the slot is kept, and what stands in it makes no difference. -/
theorem handlesShareNoState : Obligations.HandlesShareNoState := by
  intro i k x s hi
  obtain ⟨t, ht, ht'⟩ := exec_ignoresSlot hi s x
  exact ⟨t, ht, exec_slots_getElem? ht hi, ht'⟩

/-! ### The numeric codes (60_exceptions.md R241, R243) -/

/-- Every STATUS, in the order of R241. -/
def allStatuses : List Status := [.ok, .transport, .invalid, .encode]

/-- Every REASON, in the order of R243. -/
def allReasons : List Reason :=
  [.none, .addrMismatch, .funcMismatch, .shortFrame, .crcMismatch, .echoMismatch, .byteCount, .reportLength,
    .reportCommand, .badFunction, .badLength, .badCommand, .txFail, .rxFail]

theorem mem_allStatuses (e : Status) : e ∈ allStatuses := by cases e <;> decide

theorem mem_allReasons (q : Reason) : q ∈ allReasons := by cases q <;> decide

theorem statusCode_injective : Function.Injective statusCode := fun a b =>
  List.inj_on_of_nodup_map (by decide) (mem_allStatuses a) (mem_allStatuses b)

theorem reasonCode_injective : Function.Injective reasonCode := fun a b =>
  List.inj_on_of_nodup_map (by decide) (mem_allReasons a) (mem_allReasons b)

/-- Settles O60: the codes are read off the tables, and no code stands in a table twice. -/
theorem statusAndReasonCodes : Obligations.StatusAndReasonCodes :=
  ⟨rfl, rfl, fun _ _ h => reasonCode_injective h, fun _ _ h => statusCode_injective h⟩

end Sys2Proof.Machine
end

section
/-! ## Proofs of the reset family
What a step does with a reset event, and what keeps a busy handle as it is. -/

namespace Sys2Proof.Machine

/-! ### The reset event -/

/-- A step on a reset event resets the block and takes the event off (70_reset_and_hazards.md R270). -/
theorem step_of_reset {s : State} {rest : List Event} (hp : s.pending = .reset :: rest) :
    step s = .next (resetBlock { s with pending := rest }) := by
  simp only [step, hp, performEvent, dropEvent, List.tail_cons]

theorem slotAt_resetBlock (s : State) (h : Byte) :
    slotAt (resetBlock s) h = (slotAt s h).map fun sl => Slot.fresh sl.binding := by
  simp only [slotAt, resetBlock_slots, List.getElem?_map]

/-- Settles O1: a fresh slot keeps its binding only, and the slots of a run's start are fresh. -/
theorem resetLeavesTheResetValues : Obligations.ResetLeavesTheResetValues := by
  refine ⟨fun s rest hp => step_of_reset hp, fun sl hsl => ?_, rfl, rfl, rfl⟩
  obtain ⟨b, -, rfl⟩ := List.mem_map.1 hsl
  exact ⟨rfl, rfl⟩

/-- The host's delivery on an RS485 handle whose ADDR is UNSET raises F_ADDR_UNSET (10_state.md R34, 41_rs485.md R164). -/
theorem step_of_delivery_of_unset {s : State} {r : Request} {rest : List Event} {h : Byte} {sl : Slot}
    (hp : s.pending = .op r :: rest) (hd : decode r.word = .ok (.r485rxcb h)) (hagent : r.agent = .host)
    (hsl : slotAt s h = some sl) (haddr : sl.addr = none) (hkind : sl.binding.kind = .rs485)
    (hlen : r.input.length ≤ s.params.inCap) :
    step s = .next (retire (raiseFault .addrUnset
      { s with pending := rest, agent := r.agent, inPort := r.input })) := by
  have hfault := unsetAddressFaults (.r485rxcb h) h sl
    { s with pending := rest, agent := r.agent, inPort := r.input } rfl rfl hsl haddr (fun _ => hagent)
    (fun _ => hlen) (fun _ hk => hkind.trans (Option.some.inj hk)) nofun
  rw [step_of_op hp, runWord_of_decode_ok hd, hfault]
  rfl

/-- Settles O36: the reset leaves the handle UNSET, and its kind as it was. -/
theorem staleDeliveryAfterResetFaults : Obligations.StaleDeliveryAfterResetFaults := by
  intro s r rest h sl hp hd hagent hsl hkind hlen
  have hfresh : slotAt (resetBlock { s with pending := .op r :: rest }) h = some (Slot.fresh sl.binding) :=
    (slotAt_resetBlock _ h).trans (congrArg (Option.map _) hsl)
  exact ⟨_, _, step_of_reset hp, step_of_delivery_of_unset rfl hd hagent hfresh rfl hkind hlen, rfl, rfl, rfl⟩

/-! ### A busy handle -/

/-- Only a next state retires to a next state. -/
theorem exists_of_retireAnswer_eq_next {x : Answer} {t : State} (hx : retireAnswer x = .next t) :
    ∃ v, x = .next v ∧ t = retire v := by
  cases x with
  | next v => cases hx; exact ⟨v, rfl, rfl⟩
  | fault | refused => cases hx

/-- A transaction that BUSY gates is an RS485 transaction (10_state.md R35, R36). -/
theorem eq_rs485_of_needsIdle {i : Instr} {k : Kind} (hidle : needsIdle i = true)
    (hk : transportOf? i = some k) : k = .rs485 := by
  cases i <;> cases hidle <;> cases hk <;> rfl

section Busy
variable {h : Byte} {s t : State} {sl : Slot} (hsl : slotAt s h = some sl) (hbusy : sl.busy = true)
include hsl hbusy

/-- SETADDR on a busy handle of either kind raises F_BUSY (10_state.md R36). -/
theorem exec_setaddr_of_busy (a : Byte) : exec (.setaddr a h) s = .next (raiseFault .busy s) :=
  busyHandleFaults _ h sl s rfl rfl hsl hbusy nofun

/-- What a completing operation does leaves a busy handle as it is, unless it is the host's delivery or a SETADDR on it. -/
theorem Effect.slotAt_of_busy {i : Instr} (hu : Effect i s t) (hrxcb : s.agent = .host → i ≠ .r485rxcb h)
    (hset : ∀ a, i ≠ .setaddr a h) : slotAt t h = some sl := by
  cases hu with
  | none | oneCall | twoCalls => exact hsl
  | setBusy =>
    have hsame : { sl with busy := true } = sl := by rw [← hbusy]
    rw [slotAt_setBusyOf, slotAt_takeDraw, hsl, Option.map_some, hsame, ite_self]
  | @clearBusy k hi hagent =>
    have hk : k ≠ h := fun hk => hrxcb hagent (hk ▸ hi)
    rw [slotAt_setBusyOf, hsl, Option.map_some, if_neg hk]
  | @setAddr a k hi =>
    have hk : k ≠ h := fun hk => hset a (hk ▸ hi)
    rw [slotAt_setAddrOf, hsl, Option.map_some, if_neg hk]

/-- Every operation but the host's delivery on it leaves a busy handle as it is; SETADDR faults first. -/
theorem slotAt_exec_of_busy {i : Instr} (hrxcb : s.agent = .host → i ≠ .r485rxcb h)
    (hx : exec i s = .next t) : slotAt t h = some sl := by
  by_cases hset : ∃ a, i = .setaddr a h
  · obtain ⟨a, rfl⟩ := hset
    cases (exec_setaddr_of_busy hsl hbusy a).symm.trans hx
    exact hsl
  · cases exec_outcome hx with
    | stopped => rw [slotAt_stop, hsl]
    | completed hu =>
      rw [slotAt_respond]
      exact hu.slotAt_of_busy hsl hbusy hrxcb (not_exists.1 hset)

/-- Every step but a reset and the host's delivery on it leaves a busy handle as it is (70_reset_and_hazards.md R276). -/
theorem slotAt_step_of_busy (hreset : ∀ rest, s.pending ≠ .reset :: rest)
    (hrxcb : ∀ r rest, s.pending = .op r :: rest → r.agent = .host → decode r.word ≠ .ok (.r485rxcb h))
    (hx : step s = .next t) : slotAt t h = some sl := by
  match hp : s.pending with
  | [] => simp only [step, hp] at hx; cases hx; exact hsl
  | .reset :: rest => exact absurd hp (hreset rest)
  | .op r :: rest =>
    rw [step_of_op hp] at hx
    obtain ⟨v, hv, rfl⟩ := exists_of_retireAnswer_eq_next hx
    rw [slotAt_retire]
    cases hd : decode r.word with
    | error e => rw [runWord_of_decode_error hd] at hv; cases hv; exact hsl
    | ok i =>
      rw [runWord_of_decode_ok hd] at hv
      refine slotAt_exec_of_busy ?_ hbusy (fun hagent hi => ?_) hv
      · exact hsl
      · exact hrxcb r rest hp hagent (hi ▸ hd)

end Busy

/-- Settles O35: the read sets BUSY, nothing but a delivery or a reset touches the slot, and BUSY stops the gated operations. -/
theorem asyncReadHoldsTheHandle : Obligations.AsyncReadHoldsTheHandle := by
  refine ⟨fun h s sl a d hc hkind hidle hd => ?_, fun h s t sl hsl hbusy => slotAt_step_of_busy hsl hbusy,
    fun h s sl i hsl hbusy hkind hi hidle => ?_⟩
  · refine ⟨_, (r485rdposaSetsBusy h s sl a 0#8 d hc hkind hidle).1 hd, ?_⟩
    obtain ⟨hlt, -⟩ := List.getElem?_eq_some_iff.1 hc.1
    exact List.getElem?_set_self hlt
  · exact busyHandleFaults i h sl s hi hidle hsl hbusy
      fun k hk => hkind.trans (eq_rs485_of_needsIdle hidle hk).symm

end Sys2Proof.Machine
end
